-- ==== Sys2Proof/Word.lean ====
section
/-!
DEFINITION. The word types of the module and their plainest arithmetic.
A scalar register and a memory granule word are 64 bits; a register of a page is 32 bits (R504); a byte is 8.
-/
namespace Sys2Proof

/-- A scalar register, by R100, or one 64-bit word of the scratchpad, by R143. -/
abbrev Word64 := BitVec 64

/-- A register word of a page, by R504. -/
abbrev Word32 := BitVec 32

/-- A half word: a measured quantity that a register shows in 16 bits. -/
abbrev Word16 := BitVec 16

/-- A byte. -/
abbrev Byte := BitVec 8

/-- Bits [55:0] of an instruction word: everything but CLASS and opcode, which a row of the table fixes (R86, R105). -/
abbrev IWord := BitVec 56

end Sys2Proof
end

