-- ==== Sys2Proof/Syntax.lean ====
section
/-!
DEFINITION. The commands the module takes, one constructor per row of spec/opcode_table.json, with the operands each
carries. The table gives its rows no bits, so a command is plain data: unit numbers are bounded numbers (R12), measured
quantities (temperatures, currents, packet contents) are operands because they come from outside the module.
-/
namespace Sys2Proof

abbrev CoreId := Fin 4096
abbrev SiteId := Fin 4608
abbrev ClusterId := Fin 288
abbrev PlotId := Fin 32
abbrev HedgeId := Fin 32

/-- A multiply cell whose result is wrong: the cell of a sub-array holds `code` when the folding ends (R79, R97). -/
structure CellFault where
  sub  : Fin 4
  row  : Fin 32
  col  : Fin 8
  code : BitVec 48
  deriving DecidableEq, Repr

/-- What a SECDED-protected header shows at a router (R165, R197). -/
inductive LineError where
  | good | single | double | credit
  deriving DecidableEq, Repr

/-- What happens to a flit of a static channel: it enters the core's own input buffer, or leaves by output port
0 to 4 (N, S, E, W, CORE), by R178. -/
inductive FlitMove where
  | inject
  | out (o : Fin 5)
  deriving DecidableEq, Repr

/-- Checks of a static flit that fail (R196, R197). -/
inductive FlitError where
  | good | parity | credit
  deriving DecidableEq, Repr


/-- What a scratchpad patrol finds in the 256 words of its granules: damage the check bits show (R143, R145). -/
inductive WordFault where
  | good
  | single (i : Fin 256)
  | double (i : Fin 256)
  deriving DecidableEq, Repr

/-- What a Mere code block shows when it is read from the DRAM (R246, R248). -/
inductive BlockFault where
  | good | single | double | wrongPlace | linkCorrected | linkFailed
  deriving DecidableEq, Repr

/-- A request for one granule of Mere (R244): a read for a Hedge number, or a write of bytes from an offset in the granule. -/
inductive MereReq where
  | read (hedge : Fin 32)
  | write (off : Fin 32) (bytes : List Byte)
  deriving DecidableEq, Repr

abbrev ChanId := Fin 192
abbrev QueueId := Fin 132
abbrev ConnId := Fin 4096
abbrev SegId := Fin 744
abbrev CtrId := Fin 4096

/-- New damage in a core, or what a check of its own units finds (R431): a scratchpad word, a tile-program word, a register (0 to 31 scalar, 32 to
63 vector), the units' or the arrays' port parity, or an accumulator slot. `double` names an uncorrectable error, found at once; a single-bit error waits for the
next read, which corrects it (R97, R138). -/
inductive UcKind where
  | spm (word : Fin 524288)
  | tpm (word : Fin 16384) (double : Bool)
  | reg (r : Fin 64) (double : Bool)
  | unitParity
  | operandParity
  | acc (slot : Fin 16) (double : Bool)
  deriving DecidableEq, Repr

structure UcSource where
  core : CoreId
  kind : UcKind
  deriving DecidableEq, Repr

/-- Who finds a packet lost (R186): the put unit that sent it, or the engine of a queue with a transfer under way. -/
inductive LostSender where
  | put (ident : Nat)
  | engine (q : QueueId)
  deriving DecidableEq, Repr

/-- What a bar shows that is not GOOD (R322). -/
inductive BarState where
  | low | overvolt | reversed | opened
  deriving DecidableEq, Repr

/-- Causes a Spring trips on (R336). -/
inductive TripCause where
  | ctrlFault | outShort | outOvervolt | inOvercurrent | phasesLow
  deriving DecidableEq, Repr

/-- Where a droop detector fires (R359, R360): one of a cluster's four, or that of an engine half, west or east. -/
inductive DroopSource where
  | cluster (cl : ClusterId) (det : Fin 4)
  | half (east : Bool)
  deriving DecidableEq, Repr

/-- What asserts force-minimum (R388, R530): BULK_ALERT_N, or FORCE_MIN_N low for some nanoseconds. -/
inductive ForceSource where
  | bulkAlert
  | pinLow (ns : Nat)
  deriving DecidableEq, Repr

/-- What a cluster shows when its wave starts it (R406): a trip, the phases that fail, and RBASE in µΩ. -/
structure WaveResult where
  cl     : ClusterId
  trip   : Option TripCause
  phases : List (Fin 12)
  rbase  : Word16
  deriving DecidableEq, Repr

/-- How a field test ends (R438, R441): with its digest, or with a failed origin check. -/
inductive TestEnd where
  | digest (d : Word64)
  | originFail (kind : UcKind)
  deriving DecidableEq, Repr

abbrev IfcId := Fin 4
/-- Counter banks in the model's one numbering: cores 0 to 4,095, then the banks of R518 in their order. -/
abbrev BankId := Fin 4295

/-- A counter of a bank (R486, R492). -/
inductive CounterSel where
  | fixed (i : Fin 4)
  | prog (i : Fin 8)
  | last (w : Fin 12)
  | max (w : Fin 12)
  deriving DecidableEq, Repr

/-- A frame as it arrives on an interface (R268, R269, R275): what the port finds of it, and its UDP payload. -/
structure Frame where
  /-- A parity error on the port's internal data path; the FCS is good; FEC codewords corrected and uncorrectable. -/
  parity : Bool
  fcs    : Bool
  fecCe  : Nat
  fecUc  : Nat
  /-- MACsec: the association and packet number of a protected frame, and whether its protection validates. -/
  sec    : Option (Fin 4 × BitVec 64 × Bool)
  /-- The receive side runs short and the port pauses the sender: priorities and quanta of the pause frame it asks for. -/
  pause  : Option (Fin 256 × BitVec 16)
  dmac   : BitVec 48
  /-- VLAN ID; 0 where the frame is untagged or priority-tagged. -/
  vid    : Fin 4096
  /-- Unicast IP, with no option, extension header or fragment; its addresses, IPv4 in IPv4-mapped form; CE marked. -/
  plain  : Bool
  saddr  : BitVec 128
  daddr  : BitVec 128
  ce     : Bool
  /-- UDP destination port; the checksum is good. -/
  udp    : BitVec 16
  sum    : Bool
  bytes  : List Byte
  deriving DecidableEq, Repr

/-- Causes of R273 that take an interface DOWN; the remaining one, a change of ETH_CFG, is SET_CONFIG. -/
inductive LinkCause where
  | signal | localFault | remoteFault | fec | macsec
  deriving DecidableEq, Repr

/-- What the debug connector asks for (R477). -/
inductive DebugOp where
  | regRead (a : BitVec 48)
  | regWrite (a : BitVec 48) (v : Word32)
  | memRead (a : BitVec 48) (n : Fin 257)
  | memWrite (a : BitVec 48) (bytes : List Byte)
  deriving DecidableEq, Repr

/-- The engine, Hedge or sender whose work a command is, and whether an error meets it on its way: a parity error on the engine's path, or a link retry
that fails (R239, R248). -/
structure Run (α : Type) where
  unit : α
  bad  : Bool
  deriving DecidableEq, Repr

/-- A Transfer Engine descriptor's work up to its end, or to the granule before which the engine pauses (R226). -/
structure Stretch where
  index : Word32
  pause : Option Word32
  deriving DecidableEq, Repr

/-- The commands of the module: one constructor per row of the opcode table, in its order. An instruction of a tile
program carries the core that issues it and bits [55:0] of its word; every other command carries what its event names. -/
inductive Instr where
  /-- ARR_MMA, by R86. Issues a multiply-accumulate array operation into the core's operation queue, after the issue checks. -/
  | arrMma (c : CoreId) (w : IWord)
  /-- ARR_DRAIN, by R87. Issues a drain of a tile's result members to the output descriptor. -/
  | arrDrain (c : CoreId) (w : IWord)
  /-- ARR_CLR, by R87. Sets the active elements of a tile, and their checksum cells, to zero with a given tag. -/
  | arrClr (c : CoreId) (w : IWord)
  /-- ARR_WAIT, by R87. Waits until the named slots are released and their drains written, or until the queue is empty when ALL is set. -/
  | arrWait (c : CoreId) (w : IWord)
  /-- ARR_LDD, by R87. Loads an array operand descriptor from two scalar registers, for operations issued afterwards. -/
  | arrLdd (c : CoreId) (w : IWord)
  /-- ARR_STREAM_START, by R64. A queued array operation starts streaming once its members and tile slots are free, or chains behind an earlier ACC operation. -/
  | arrStreamStart (c : CoreId) (i : Fin 8) (parityBad : Bool)
  /-- ARRAY_RAMP_STEP, by R74. The ramp-up or ramp-down of a core's array moves one eighth every RAMP_LEN/8 local cycles. -/
  | arrayRampStep (c : CoreId)
  /-- ARR_FOLD_COMPLETE, by R72. An operation's folding completes, the final order-mode combination is done and its accumulation flags are raised. -/
  | arrFoldComplete (c : CoreId) (i : Fin 8)
  /-- ARR_CHECKSUM_COMPARE, by R79. Each row sum is compared with its checksum; then the slots are released and the drain snapshot is taken. -/
  | arrChecksumCompare (c : CoreId) (i : Fin 8) (bad : Option CellFault)
  /-- ARR_DRAIN_WRITE, by R82. The core's drain path rounds a snapshot and writes it to the output descriptor, with row statistics if asked. -/
  | arrDrainWrite (c : CoreId)
  /-- NOP, by R108. Does nothing. -/
  | nop (c : CoreId) (w : IWord)
  /-- ADD, by R108. Adds two scalar operands modulo 2^64. -/
  | add (c : CoreId) (w : IWord)
  /-- SUB, by R108. Subtracts two scalar operands modulo 2^64. -/
  | sub (c : CoreId) (w : IWord)
  /-- AND, by R108. Bitwise AND of two scalar operands. -/
  | and (c : CoreId) (w : IWord)
  /-- OR, by R108. Bitwise OR of two scalar operands. -/
  | or (c : CoreId) (w : IWord)
  /-- XOR, by R108. Bitwise XOR of two scalar operands. -/
  | xor (c : CoreId) (w : IWord)
  /-- SHL, by R108. Left shift of a scalar register. -/
  | shl (c : CoreId) (w : IWord)
  /-- SHR, by R108. Logical right shift of a scalar register. -/
  | shr (c : CoreId) (w : IWord)
  /-- SRA, by R108. Arithmetic right shift of a scalar register. -/
  | sra (c : CoreId) (w : IWord)
  /-- MUL, by R108. Writes the low 64 bits of a scalar product. -/
  | mul (c : CoreId) (w : IWord)
  /-- SLT, by R108. Signed set-less-than. -/
  | slt (c : CoreId) (w : IWord)
  /-- SLTU, by R108. Unsigned set-less-than. -/
  | sltu (c : CoreId) (w : IWord)
  /-- LI, by R108. Loads a sign-extended immediate into a scalar register. -/
  | li (c : CoreId) (w : IWord)
  /-- LIH, by R108. Sets the high word of a scalar register from an immediate, keeping the low word of RA. -/
  | lih (c : CoreId) (w : IWord)
  /-- LD, by R108. Loads 8 aligned bytes from the scratchpad into a scalar register. -/
  | ld (c : CoreId) (w : IWord)
  /-- LDW, by R108. Loads 4 aligned bytes, zero-extended, into a scalar register. -/
  | ldw (c : CoreId) (w : IWord)
  /-- ST, by R108. Stores 8 bytes of a scalar register to the scratchpad. -/
  | st (c : CoreId) (w : IWord)
  /-- STW, by R108. Stores the low 4 bytes of a scalar register to the scratchpad. -/
  | stw (c : CoreId) (w : IWord)
  /-- BEQ, by R108. Branches when two registers are equal. -/
  | beq (c : CoreId) (w : IWord)
  /-- BNE, by R108. Branches when two registers differ. -/
  | bne (c : CoreId) (w : IWord)
  /-- BLT, by R108. Branches on signed less-than. -/
  | blt (c : CoreId) (w : IWord)
  /-- BGE, by R108. Branches on signed greater-or-equal. -/
  | bge (c : CoreId) (w : IWord)
  /-- JAL, by R108. Jumps relative and writes the return address. -/
  | jal (c : CoreId) (w : IWord)
  /-- JR, by R108. Jumps to the address in a register. -/
  | jr (c : CoreId) (w : IWord)
  /-- LOOP, by R109. Pushes a loop level that repeats the next IMM instructions RA times. -/
  | loop (c : CoreId) (w : IWord)
  /-- WAITC, by R108. Delays the next issue by RA + IMM local cycles. -/
  | waitc (c : CoreId) (w : IWord)
  /-- RDCYC, by R131. Reads the local cycles since step start. -/
  | rdcyc (c : CoreId) (w : IWord)
  /-- RDID, by R108. Reads the logical core ID, Hedge ID and position within the Hedge. -/
  | rdid (c : CoreId) (w : IWord)
  /-- VADD, by R111. Vector add per active lane. -/
  | vadd (c : CoreId) (w : IWord)
  /-- VSUB, by R111. Vector subtract per active lane. -/
  | vsub (c : CoreId) (w : IWord)
  /-- VMUL, by R111. Vector multiply per active lane. -/
  | vmul (c : CoreId) (w : IWord)
  /-- VFMA, by R111. Vector fused multiply-add with one rounding. -/
  | vfma (c : CoreId) (w : IWord)
  /-- VMIN, by R112. Vector minimum, with numbers beating NaN. -/
  | vmin (c : CoreId) (w : IWord)
  /-- VMAX, by R112. Vector maximum, with numbers beating NaN. -/
  | vmax (c : CoreId) (w : IWord)
  /-- VAND, by R111. Bitwise AND per lane. -/
  | vand (c : CoreId) (w : IWord)
  /-- VOR, by R111. Bitwise OR per lane. -/
  | vor (c : CoreId) (w : IWord)
  /-- VXOR, by R111. Bitwise XOR per lane. -/
  | vxor (c : CoreId) (w : IWord)
  /-- VSHL, by R111. Integer left shift per lane. -/
  | vshl (c : CoreId) (w : IWord)
  /-- VSHRA, by R111. Arithmetic right shift per lane. -/
  | vshra (c : CoreId) (w : IWord)
  /-- VSHRL, by R111. Logical right shift per lane. -/
  | vshrl (c : CoreId) (w : IWord)
  /-- VCMPEQ, by R111. Per-lane equality compare giving all ones or zeros. -/
  | vcmpeq (c : CoreId) (w : IWord)
  /-- VCMPLT, by R111. Per-lane less-than compare giving all ones or zeros. -/
  | vcmplt (c : CoreId) (w : IWord)
  /-- VSEL, by R111. Per-lane select by a mask register. -/
  | vsel (c : CoreId) (w : IWord)
  /-- VCVT, by R112. Converts lanes between types, with PART selection and saturation. -/
  | vcvt (c : CoreId) (w : IWord)
  /-- VEXP2, by R113. Per-lane base-2 exponential. -/
  | vexp2 (c : CoreId) (w : IWord)
  /-- VLOG2, by R113. Per-lane base-2 logarithm. -/
  | vlog2 (c : CoreId) (w : IWord)
  /-- VRSQRT, by R113. Per-lane reciprocal square root. -/
  | vrsqrt (c : CoreId) (w : IWord)
  /-- VRSUM, by R114. Sums the active lanes into a DA48 or exact integer scalar. -/
  | vrsum (c : CoreId) (w : IWord)
  /-- VRMAX, by R114. Maximum with index over the active lanes. -/
  | vrmax (c : CoreId) (w : IWord)
  /-- VRMIN, by R114. Minimum with index over the active lanes. -/
  | vrmin (c : CoreId) (w : IWord)
  /-- VLD, by R111. Loads 256 aligned bytes into a vector register. -/
  | vld (c : CoreId) (w : IWord)
  /-- VST, by R111. Stores the active lanes of a vector register. -/
  | vst (c : CoreId) (w : IWord)
  /-- VBCAST, by R111. Broadcasts a scalar to every active lane. -/
  | vbcast (c : CoreId) (w : IWord)
  /-- VEXT, by R111. Extracts one lane into a scalar register. -/
  | vext (c : CoreId) (w : IWord)
  /-- VSETVL, by R111. Sets VL to min(SA, 256). -/
  | vsetvl (c : CoreId) (w : IWord)
  /-- MERGE, by R124. SET.RUN merging two sorted key streams into records. -/
  | merge (c : CoreId) (w : IWord)
  /-- INTERSECT, by R124. SET.RUN multiset intersection of two sorted key streams. -/
  | intersect (c : CoreId) (w : IWord)
  /-- UNION, by R124. SET.RUN multiset union of two sorted key streams. -/
  | union (c : CoreId) (w : IWord)
  /-- DIFF, by R124. SET.RUN multiset difference A minus B. -/
  | diff (c : CoreId) (w : IWord)
  /-- JOIN, by R124. SET.RUN join emitting every matching pair, A position outer. -/
  | join (c : CoreId) (w : IWord)
  /-- SET_RUN_COMPLETE, by R125. A set operation ends, writing RD with the record count or faulting on unsorted input. -/
  | setRunComplete (c : CoreId) (parityBad : Bool)
  /-- GTH_ARM, by R121. Arms a gather index list drawn from a generator. -/
  | gthArm (c : CoreId) (w : IWord)
  /-- GTH_COPY, by R121. Takes the next indices and writes their rows packed into the scratchpad. -/
  | gthCopy (c : CoreId) (w : IWord)
  /-- GTH_WAIT, by R121. Waits until every issued GTH.COPY has written its rows. -/
  | gthWait (c : CoreId) (w : IWord)
  /-- STR_LDG, by R119. Loads a generator descriptor from four scalar registers. -/
  | strLdg (c : CoreId) (w : IWord)
  /-- STR_SEND, by R120. Sends generator elements on an outbound static channel under credits. -/
  | strSend (c : CoreId) (w : IWord)
  /-- STR_RECV, by R120. Writes bytes from an inbound static channel to generator addresses. -/
  | strRecv (c : CoreId) (w : IWord)
  /-- STR_WAIT, by R119. Waits until no SEND or RECV is active on the masked channels. -/
  | strWait (c : CoreId) (w : IWord)
  /-- PND_OPEN, by R148. Opens a Pond with base, length, admitted Hedge and generation, waiting if it is CLOSING. -/
  | pndOpen (c : CoreId) (w : IWord)
  /-- PND_CLOSE, by R148. Moves an open Pond to CLOSING and completes with the final landed count. -/
  | pndClose (c : CoreId) (w : IWord)
  /-- PND_PUT, by R127. Sends one write packet from the scratchpad to a remote Pond. -/
  | pndPut (c : CoreId) (w : IWord)
  /-- PND_CNT, by R127. Reads a Pond's landed-byte count. -/
  | pndCnt (c : CoreId) (w : IWord)
  /-- PND_WAITN, by R127. Waits until a Pond's landed count reaches RA. -/
  | pndWaitn (c : CoreId) (w : IWord)
  /-- PND_FENCE, by R127. Waits for every earlier PUT to be acknowledged or refused and returns the refusals. -/
  | pndFence (c : CoreId) (w : IWord)
  /-- SYN_FENCE, by R102. Waits until every earlier write of every unit of the core is complete. -/
  | synFence (c : CoreId) (w : IWord)
  /-- SYN_BAR, by R128. Waits on a Hedge barrier until every core has issued it as often. -/
  | synBar (c : CoreId) (w : IWord)
  /-- SYN_DONE, by R128. Waits for every unit and PUT to finish, reports to the Fabric Engine and enters DONE. -/
  | synDone (c : CoreId) (w : IWord)
  /-- BARRIER_TOKEN, by R128. A barrier token arrives at a core over the dynamic CTL channels. -/
  | barrierToken (c : CoreId) (b : Fin 4)
  /-- STEP_START, by R99. Step start reaches a core, which resets registers and tiles, loads the argument and starts issuing at the entry. -/
  | stepStart (c : CoreId)
  /-- POND_WRITE_PACKET, by R149. A write packet reaches the destination check point and is checked, then lands and counts or is refused. -/
  | pondWritePacket (ident : Nat) (parityBad : Bool)
  /-- POND_ACK, by R152. An acknowledgement or refusal returns to the sender's put unit and is counted. -/
  | pondAck (ident : Nat)
  /-- POND_CLOSED, by R148. A CLOSING Pond reaches CLOSED once every accepted packet has landed. -/
  | pondClosed (c : CoreId) (p : Fin 16)
  /-- LOST_PACKET, by R186. A request unacknowledged for 2^18 local cycles is a lost packet, UC against the sender's Hedge. -/
  | lostPacket (who : LostSender)
  /-- SPM_PATROL, by R145. The scratchpad patrol reads one granule per bank every 4,096 local cycles, correcting or poisoning. -/
  | spmPatrol (c : CoreId) (found : WordFault)
  /-- DYNAMIC_PACKET_HOP, by R175. A dynamic packet crosses a router, routed row then column, classed local, transit or escape. -/
  | dynamicPacketHop (ident : Nat) (header : LineError)
  /-- STATIC_FLIT, by R178. A static channel flit moves on its wheel slot through the channel tables under credits. -/
  | staticFlit (c : CoreId) (mv : FlitMove) (ch : Fin 8) (err : FlitError)
  /-- PLOT_HEDGE_UPDATE, by R174. A CTL packet updates a router's RTR_PLOT_HEDGE table. -/
  | plotHedgeUpdate (p : SiteId)
  /-- HEARTBEAT, by R415. A router sends a heartbeat with ALIVE or QUIET to each neighbour every 1,024 local cycles. -/
  | heartbeat (p : SiteId) (alive : Bool) (quiet : Bool)
  /-- HEARTBEAT_LOSS, by R415. Four missed heartbeats or ALIVE clear is reported, polled and confirmed as a site failure. -/
  | heartbeatLoss (p : SiteId) (pollAlive : Bool)
  /-- Q_DOORBELL, by R205. A write of a new TAIL is accepted or ignored with DB_ERR. -/
  | qDoorbell (conn : ConnId) (q : QueueId) (tail : Word32)
  /-- DESCRIPTOR_FETCH, by R206. An engine fetches and checks the descriptor at HEAD. -/
  | descriptorFetch (q : QueueId) (parityBad : Bool)
  /-- DESCRIPTOR_START, by R209. A descriptor starts once its wait, fence and room conditions are met. -/
  | descriptorStart (q : QueueId)
  /-- COMPLETION_WRITE, by R207. An engine writes a completion record when ring room exists, signals a counter and sends an EVENT. -/
  | completionWrite (q : Run QueueId)
  /-- BIND_HEDGE, by R216. Binds a rectangle of plots to a Hedge after the checks of R216. -/
  | bindHedge (h : HedgeId)
  /-- LOAD_IMAGE, by R188. Checks a placed image and writes every core of the Hedge from it. -/
  | loadImage (h : Run HedgeId)
  /-- RUN_STEP, by R218. Restores if asked, records Ponds, wakes, forecasts and starts a step on the Hedge. -/
  | runStep (h : Run HedgeId)
  /-- FENCE, by R215. Completes when every earlier TE or NE descriptor of the Hedge number has completed. -/
  | fence (h : HedgeId)
  /-- SIGNAL_EVENT, by R211. Adds to or sets an event counter. -/
  | signalEvent (h : HedgeId)
  /-- WAIT_EVENT, by R215. Completes when an event counter reaches VALUE in 64 bits. -/
  | waitEvent (h : HedgeId)
  /-- EVENT_WAIT_MET, by R211. A waiter becomes eligible in the first FE cycle after a signal meets its condition. -/
  | eventWaitMet (q : QueueId)
  /-- RESET_HEDGE, by R217. Kills the Hedge, leading to retention or scrub. -/
  | resetHedge (h : HedgeId)
  /-- SCRUB_HEDGE, by R156. Ends the binding or retention and scrubs the Hedge's plots. -/
  | scrubHedge (h : HedgeId)
  /-- SCRUB_COMPLETE, by R157. A Hedge scrub finishes, SCRUBBING clears and the Hedge becomes UNBOUND. -/
  | scrubComplete (h : HedgeId)
  /-- RETENTION_END, by R158. Post-mortem retention ends after 10 s and the scrub runs. -/
  | retentionEnd (h : HedgeId)
  /-- STEP_DONE, by R218. Every core is DONE with no bytes left in channels; the snapshot copy runs and COMMIT inverts. -/
  | stepDone (h : Run HedgeId)
  /-- PROGRAM_ERROR, by R221. The FE ends the step at once when a core reaches FAULT, flushing channels without replay. -/
  | programError (h : HedgeId) (c : CoreId)
  /-- WATCHDOG, by R220. The FE watchdog expires after 4 ms of RUNNING and ends the attempt without replay. -/
  | watchdog (h : HedgeId)
  /-- HEDGE_FREEZE, by R432. A UC reaching the FE freezes a RUNNING Hedge, stopping its cores and scratchpad access. -/
  | hedgeFreeze (h : HedgeId) (src : Option UcSource)
  /-- REPLAY, by R222. After a freeze, the FE flushes, restores the manifest, Ponds and lost cores, and restarts the attempt. -/
  | replay (h : HedgeId) (parityBad : Bool)
  /-- COPY, by R228. TE copy of strided rows between Mere and scratchpads. -/
  | copy (q : QueueId) (i : Stretch) (parityBad : Bool)
  /-- GATHER, by R228. TE gather of indexed table rows. -/
  | gather (q : QueueId) (i : Stretch) (parityBad : Bool)
  /-- SCATTER, by R228. TE scatter of rows by index, assigning or adding. -/
  | scatter (q : QueueId) (i : Stretch) (parityBad : Bool)
  /-- FILL, by R228. TE fill of a range with a repeated 8-byte pattern. -/
  | fill (q : QueueId) (i : Stretch) (parityBad : Bool)
  /-- CONVERT, by R228. TE format conversion with optional transpose. -/
  | convert (q : QueueId) (i : Stretch) (parityBad : Bool)
  /-- ALL_REDUCE, by R297. NE all-reduce over the communicator. -/
  | allReduce (q : Run QueueId)
  /-- REDUCE_SCATTER, by R297. NE reduce-scatter leaving chunk r on rank r. -/
  | reduceScatter (q : Run QueueId)
  /-- ALL_GATHER, by R297. NE all-gather of every rank's contribution. -/
  | allGather (q : Run QueueId)
  /-- BROADCAST, by R297. NE broadcast from ROOT. -/
  | broadcast (q : Run QueueId)
  /-- SHUFFLE, by R306. NE shuffle of records to ranks by key. -/
  | shuffle (q : Run QueueId)
  /-- SEND, by R300. NE point-to-point send to rank PEER. -/
  | send (q : Run QueueId)
  /-- RECV, by R300. NE point-to-point receive from rank PEER. -/
  | recv (q : Run QueueId)
  /-- REQUEST, by R231. Mailbox request handed to the Privet controller, whose response completes it. -/
  | request (src : Run (Fin 4100))
  /-- CLAIM, by R200. HEDGE_CTL CLAIM makes the writing connection owner of an unowned Hedge number. -/
  | claim (conn : ConnId) (h : HedgeId)
  /-- RELEASE, by R200. HEDGE_CTL RELEASE ends ownership of an UNBOUND Hedge number, releasing its resources. -/
  | release (conn : ConnId) (h : HedgeId)
  /-- KILL, by R217. HEDGE_CTL KILL kills the Hedge at once. -/
  | kill (conn : ConnId) (h : HedgeId)
  /-- SCRUB, by R237. HEDGE_CTL SCRUB acts as SCRUB_HEDGE outside any queue. -/
  | scrub (conn : ConnId) (h : HedgeId)
  /-- RESET, by R232. Q_CTL RESET aborts a queue's descriptors in flight and stops it. -/
  | reset (conn : ConnId) (q : QueueId)
  /-- RESUME, by R206. Q_CTL RESUME restarts a stopped queue at HEAD. -/
  | resume (conn : ConnId) (q : QueueId)
  /-- Q_CFG_WRITE, by R235. A write of Q_CFG, ignored with CFG_ERR when not allowed. -/
  | qCfgWrite (conn : ConnId) (q : QueueId) (v : Word32)
  /-- SEG_OWNER_ASSIGN, by R238. Assigns an unassigned, non-scrubbing segment to a Hedge number. -/
  | segOwnerAssign (conn : ConnId) (g : SegId) (h : HedgeId)
  /-- SEG_OWNER_RELEASE, by R202. Writing ASSIGNED 0 releases a segment and starts its zero fill. -/
  | segOwnerRelease (conn : ConnId) (g : SegId)
  /-- SEGMENT_FILL_END, by R202. The zero fill of a released segment ends and SCRUBBING clears. -/
  | segmentFillEnd (g : SegId)
  /-- EVT_HI_WRITE, by R211. Stages the high word of an event counter. -/
  | evtHiWrite (conn : ConnId) (i : CtrId) (v : Word32)
  /-- EVT_LO_WRITE, by R211. Sets the whole event counter from the staged high word and the written low word. -/
  | evtLoWrite (conn : ConnId) (i : CtrId) (v : Word32)
  /-- EVT_LO_READ, by R211. Reading EVT_LO latches the counter's high word for the next EVT_HI read. -/
  | evtLoRead (conn : ConnId) (i : CtrId)
  /-- COMM_ENTRY_WRITE, by R294. A write of a communicator entry, setting VALID resets its sequences or ignored with CFG_ERR. -/
  | commEntryWrite (conn : ConnId) (c : Fin 64) (w : Fin 8) (v : Word32)
  /-- MERE_REQUEST, by R244. A channel serves a granule read or write through its block buffer, merging partial blocks. -/
  | mereRequest (g : Nat) (rq : MereReq) (fault : BlockFault)
  /-- MERE_PATROL, by R249. A channel patrol reads one code block every 100 reference edges. -/
  | merePatrol (ch : ChanId) (fault : BlockFault)
  /-- TRAINING_STAGE, by R250. A channel runs one initial training stage, restarting or retiring on failure. -/
  | trainingStage (ch : ChanId) (pass : Bool)
  /-- MERE_ZERO_FILL, by R252. Every active channel writes zero to all its code blocks after training. -/
  | mereZeroFill
  /-- REFRESH, by R253. A per-bank refresh is issued as the standard and derating require. -/
  | refresh (ch : ChanId) (derate : Bool)
  /-- TEMP_REPORT, by R253. The package sensor reports its temperature to its channels every 100 µs. -/
  | tempReport (pkg : Fin 48) (temp : Fin 256)
  /-- POWER_DOWN_ENTRY, by R254. A channel idle for 10 µs enters power-down. -/
  | powerDownEntry (ch : ChanId)
  /-- SELF_REFRESH_ENTRY, by R254. A channel idle for 1 ms enters self refresh. -/
  | selfRefreshEntry (ch : ChanId)
  /-- RETRAIN_DUE, by R255. A channel becomes due for retraining by period or temperature. -/
  | retrainDue (ch : ChanId)
  /-- RETRAIN_WINDOW, by R257. A granted channel holds requests and runs one periodic retraining window. -/
  | retrainWindow (ch : ChanId) (pass : Bool) (hold : Fin 801)
  /-- FULL_RETRAIN, by R259. An in-service full retraining runs stages 2 to 6, entering FAILED if they fail. -/
  | fullRetrain (ch : ChanId) (fail : Option (Fin 5)) (hold : Fin 50001)
  /-- FRAME_RECEIVE, by R269. A frame arrives and is accepted or dropped by the receive filter. -/
  | frameReceive (i : IfcId) (f : Frame)
  /-- ARP_REQUEST, by R269. An ARP request for an own address is answered. -/
  | arpRequest (i : IfcId) (vid : Fin 4096) (addr : Word32)
  /-- NEIGHBOUR_SOLICITATION, by R269. An IPv6 Neighbour Solicitation for an own address is answered. -/
  | neighbourSolicitation (i : IfcId) (vid : Fin 4096) (addr : BitVec 128)
  /-- PAUSE_FRAME, by R268. A received PFC pause frame pauses the named priorities. -/
  | pauseFrame (i : IfcId) (prios : Fin 256) (quanta : Word16)
  /-- LINK_DOWN, by R273. An interface goes DOWN and its unacknowledged packets fail over to live paths. -/
  | linkDown (i : IfcId) (cause : LinkCause)
  /-- LINK_UP, by R273. Auto-negotiation and link training end and the interface comes up. -/
  | linkUp (i : IfcId)
  /-- PATH_RETURN, by R273. After the link holds 100 ms and a PROBE is answered, the path returns to use. -/
  | pathReturn (i : IfcId)
  /-- SYN, by R278. A NULL with SYN opens a connection or is refused. -/
  | rasSyn
  /-- FIN, by R279. A NULL with FIN closes a connection. -/
  | rasFin (k : ConnId)
  /-- ACK, by R279. An acknowledgement advances ACK_PSN and SACK and adjusts the congestion window. -/
  | rasAck (k : ConnId)
  /-- PROBE, by R279. A NULL with PROBE is answered at once on its path. -/
  | rasProbe (k : ConnId)
  /-- REG_RD, by R282. Reads register words and returns them in a COMPLETION. -/
  | regRd (k : ConnId)
  /-- REG_WR, by R282. Writes register words, with the PW and lock checks of R9; the row for registers without their own. -/
  | regWr (k : ConnId)
  /-- MEM_RD, by R282. Reads scratchpad or Mere bytes under R155 and R203. -/
  | memRd (k : ConnId)
  /-- MEM_WR, by R282. Writes scratchpad or Mere bytes under R155 and R203. -/
  | memWr (k : ConnId)
  /-- DOORBELL, by R282. Acts as a REG_WR of TAIL to the named queue's doorbell. -/
  | doorbell (k : ConnId)
  /-- MGMT, by R466. A MGMT fragment arrives and is acted on when the whole block has arrived. -/
  | mgmt (k : ConnId)
  /-- ACK_TIMER, by R279. An acknowledgement is sent within 2 µs of the oldest unacknowledged packet. -/
  | ackTimer (k : ConnId)
  /-- RETRANSMIT_TIMEOUT, by R280. A path's retransmit timeout expires and the packet is resent with RETX. -/
  | retransmitTimeout (k : ConnId) (path : IfcId)
  /-- SUSPECT_PROBE, by R280. A SUSPECT path sends a PROBE every 1 ms. -/
  | suspectProbe (k : ConnId) (path : IfcId)
  /-- KEEPALIVE, by R279. An idle connection sends a PROBE every KEEPALIVE_MS. -/
  | keepalive (k : ConnId)
  /-- DEAD_MS, by R279. No progress for DEAD_MS closes the connection. -/
  | deadMs (k : ConnId)
  /-- EVENT_SEND, by R514. An enabled status bit rising sends one KIND 2 EVENT, coalescing bits within 1 µs. -/
  | eventSend (notice : Bool)
  /-- EVT_HOLD_RELEASE, by R512. Changing EVT_HOLD from 1 to 0 sends one EVENT if an enabled bit is set. -/
  | evtHoldRelease (conn : ConnId) (a : BitVec 48)
  /-- BLK_IEN_WRITE, by R514. Setting an enable whose status bit is already set sends one EVENT. -/
  | blkIenWrite (conn : ConnId) (a : BitVec 48) (v : Word32)
  /-- DATA, by R311. A DATA segment arrives, is checked by CRC and sum digest, then reduced, forwarded or written. -/
  | collData (k : ConnId)
  /-- READY, by R313. A READY lets the sender send DATA of that SEQ. -/
  | collReady (k : ConnId)
  /-- CONFIRM, by R314. A CONFIRM for a step lets the sender complete. -/
  | confirm (k : ConnId)
  /-- RESEND, by R312. A RESEND makes the sender encode the range again and send it with ATTEMPT 1. -/
  | resend (k : ConnId)
  /-- ABORT, by R314. An ABORT ends the SEQ in progress with PEER ABORTED and is flooded once per connection. -/
  | abort (k : ConnId)
  /-- COUNTS, by R306. A COUNTS segment tells a SHUFFLE receiver how many records a rank sends. -/
  | counts (k : ConnId)
  /-- COLL_TIMEOUT, by R314. No progress for COLL_TIMEOUT_MS ends the descriptor with PEER TIMEOUT. -/
  | collTimeout (q : QueueId) (index : Word32)
  /-- BAR_LOST, by R322. A bar leaves GOOD and its switch opens; the single-bar cap follows. -/
  | barLost (b : Fin 2) (st : BarState) (decivolts : Fin 1024)
  /-- BAR_GOOD, by R322. A bar held 30 to 40 V for 100 ms returns to GOOD. -/
  | barGood (b : Fin 2) (decivolts : Fin 1024)
  /-- BAR_OVERCURRENT, by R323. A surviving bar above 300 A for 2 µs asserts BULK_ALERT_N. -/
  | barOvercurrent (b : Fin 2)
  /-- POWER_FAIL, by R443. Both bars out of GOOD drop bulk enable and Privet writes its tail to flash. -/
  | powerFail
  /-- CELL_FAULT, by R325. A failing bulk cell isolates itself and its share is taken up. -/
  | cellFault (cell : Fin 72)
  /-- RAIL_LOW, by R326. The 1.8 V rail below 1.70 V asserts BULK_ALERT_N, below 1.60 V for 10 µs is FATAL. -/
  | railLow (millivolts : Fin 4096) (deep : Bool)
  /-- PHASE_FAULT, by R331. A Spring phase is disabled and HWLIM follows the healthy phases. -/
  | phaseFault (cl : ClusterId) (ph : Fin 12)
  /-- SPRING_TRIP, by R336. A Spring trips, opens its switch and the cluster goes DARK. -/
  | springTrip (cl : ClusterId) (cause : TripCause)
  /-- FORECAST, by R332. A Spring receives a forecast class, enabling phases and raising its output. -/
  | forecast (cl : ClusterId)
  /-- FORECAST_END, by R332. After the 20 µs window the Spring removes the offset. -/
  | forecastEnd (cl : ClusterId)
  /-- PHASE_SHED, by R332. A Spring sheds phases unneeded for 100 µs. -/
  | phaseShed (cl : ClusterId) (needed : Fin 13)
  /-- WAKE_REQUEST, by R330. A wake is requested for a cluster in retention. -/
  | wakeRequest (cl : ClusterId)
  /-- WAKE_WINDOW, by R333. At its phase's window the wake sequencer starts the cluster's ramp. -/
  | wakeWindow (cl : ClusterId)
  /-- PGOOD, by R329. A Spring output reaches its target and enters ACTIVE. -/
  | pgood (cl : ClusterId)
  /-- IMPEDANCE_ESTIMATE, by R335. Every 1 ms a Spring estimates its input-path resistance and acts on RATIO. -/
  | impedanceEstimate (cl : ClusterId) (microohms : Word16)
  /-- OSCILLATOR_LOST, by R349. An oscillator is LOST; the reference switches or falls back to the ring oscillator. -/
  | oscillatorLost (o : Fin 2)
  /-- CLOCK_GATE, by R351. A cluster idle for GATE_US gates its clock. -/
  | clockGate (cl : ClusterId)
  /-- CLOCK_STANDBY, by R351. A cluster gated for STANDBY_MS enters STANDBY and its Spring RETENTION. -/
  | clockStandby (cl : ClusterId)
  /-- CLOCK_RESUME, by R352. A gated cluster resumes its edges on activity. -/
  | clockResume (cl : ClusterId)
  /-- LOCK, by R351. A generator locks at the step in force and enters RUN. -/
  | clockLock (cl : ClusterId)
  /-- LOCK_LOST, by R367. A PLL loses lock; the output stops and it relocks from PARK. -/
  | lockLost (cl : ClusterId)
  /-- GO, by R356. STEP_CTL GO checks droop history and broadcasts the arm message. -/
  | stepGo (target : Fin 64) (count : Fin 1024)
  /-- STEP_SWITCH, by R357. At the switch edge every running generator switches its divider. -/
  | stepSwitch (missed : List ClusterId)
  /-- SWITCH_MISS, by R367. At E + 8 a generator that missed the switch relocks. -/
  | switchMiss (cl : ClusterId)
  /-- DROOP_DETECT, by R359. A droop detector fires and the cluster stretches periods by 50 %. -/
  | droopDetect (src : DroopSource)
  /-- FORCE_MINIMUM, by R388. BULK_ALERT_N or FORCE_MIN_N forces step 10 and a ceiling of 4. -/
  | forceMinimum (src : ForceSource)
  /-- FORCE_MIN_RELEASE, by R388. Privet releases force-minimum 10 ms after every cause clears. -/
  | forceMinRelease (edges : Word32)
  /-- ISSUE_LIMITER_PERIOD, by R370. Every 1 µs the issue limiter adjusts L by IOUT against EFFLIM. -/
  | issueLimiterPeriod (cl : ClusterId) (iout : Word16) (vout : Word16) (est : Word16)
  /-- MODULE_LOOP_PERIOD, by R373. Every 100 µs Privet measures power and writes every Spring's LIMIT. -/
  | moduleLoopPeriod (pIn : Word16) (pPer : Word16)
  /-- STEP_DECISION, by R375. Every 1 ms Privet chooses the frequency step. -/
  | stepDecision (fit : Fin 64)
  /-- THERMAL_SAMPLE, by R386. Every 10 µs the sensors are sampled and the thermal thresholds act. -/
  | thermalSample (cl : ClusterId) (t0 : Int) (t1 : Int) (t2 : Int) (t3 : Int) (predicted : Bool)
  /-- THERMAL_HOLD_RELEASE, by R386. A hold ends after 1 ms below 105 °C. -/
  | thermalHoldRelease (cl : ClusterId)
  /-- MERE_THERMAL_REDUCTION, by R387. Privet lowers or raises the Mere thermal reduction on its timers. -/
  | mereThermalReduction
  /-- WEIGHT_REFIT, by R383. Every 2 s Privet refits each cluster's activity weights. -/
  | weightRefit (cl : ClusterId) (ws : List Word16) (residual : Word16)
  /-- ESTIMATE_CHECK, by R384. Each 1 ms sample compares estimate and measurement and marks DIVERGED. -/
  | estimateCheck (cl : ClusterId)
  /-- RECALIBRATION, by R385. An idle cluster's current sense is recalibrated against the calibration load. -/
  | recalibration (cl : ClusterId) (gainErr : Int)
  /-- EPOCH_END, by R378. At the end of each 5 ms epoch the device measures W, sends REPORT, grants and renews. -/
  | epochEnd
  /-- REPORT, by R378. A steering REPORT arrives and is fresh for 15 ms. -/
  | steerReport (k : ConnId)
  /-- GRANT, by R379. A GRANT or RENEW arrives and is accepted or refused by the receiver. -/
  | steerGrant (k : ConnId)
  /-- ACCEPT, by R379. An ACCEPT confirms a grant to the donor. -/
  | steerAccept (k : ConnId)
  /-- REFUSE, by R379. A REFUSE makes the donor restore the amount. -/
  | steerRefuse (k : ConnId)
  /-- RETURN, by R379. A RETURN makes the donor restore the amount. -/
  | steerReturn (k : ConnId)
  /-- LEASE_EXP, by R379. A grant lapses when no GRANT, RENEW or ACCEPT arrives for 20 ms. -/
  | leaseExp
  /-- PRIVET_WAKE, by R397. Stage S0 verifies the Privet image and checks oscillators and inputs. -/
  | privetWake (osc0 : Bool) (osc1 : Bool) (fusesOk : Bool) (okA : Bool) (okB : Bool)
  /-- BULK_ENABLE, by R397. Stage S1 starts the bulk cells and the 1.8 V rail. -/
  | bulkEnable (fails : List (Fin 72)) (millivolts : Fin 4096)
  /-- FUSE_MAP_READ, by R402. Stage S2 votes the defect fuse map and applies repairs. -/
  | fuseMapRead
  /-- CLUSTER_WAVE, by R406. Stage S3 starts one cluster per field every 200 µs. -/
  | clusterWave (res : List WaveResult)
  /-- SEAM_REPAIR, by R407. Stage S4 repairs seams and runs the neighbour signature test. -/
  | seamRepair (bundles : List Nat) (sigs : List (SiteId × Word64)) (links : List (SiteId × Bool)) (paths : List (SiteId × SiteId)) (edges : List (Fin 176))
  /-- MAP_BUILD, by R408. Stage S5 builds the logical map, disables plots and chooses detour rows. -/
  | mapBuild
  /-- RUNTIME_IMAGE_BROADCAST, by R409. Stage S6 broadcasts the core runtime image and checks its digest. -/
  | runtimeImageBroadcast (fails : List SiteId)
  /-- KNOWN_ANSWER_RUN, by R410. Stage S7 runs the known-answer set and scrubs every site. -/
  | knownAnswerRun (fails : List SiteId)
  /-- ETHERNET_BRING_UP, by R413. Stage S9 configures the ports and waits for links up to 5,000 ms. -/
  | ethernetBringUp
  /-- READY_STAGE, by R412. Stage S10 asserts PWR_GOOD and writes the READY record. -/
  | readyStage
  /-- BUDGET, by R397. A stage overrunning its budget halts bring-up. -/
  | stageBudget
  /-- SHIFT_PLAN, by R417. The sparing logic plans a shift, checking for a spare and waking receivers. -/
  | shiftPlan (h : HedgeId)
  /-- SHIFT_COPY, by R418. Moving cores send their items east over the shift lanes. -/
  | shiftCopy (h : HedgeId) (lane : Option SiteId)
  /-- SHIFT_COMMIT, by R419. The new map, RTR_CFG and MAP_ROW take effect together. -/
  | shiftCommit (h : HedgeId)
  /-- PLANNED_RETIREMENT, by R422. A planned retirement runs its shift at the next step boundary without replay. -/
  | plannedRetirement (p : SiteId)
  /-- FIELD_TEST, by R438. An eligible idle site runs the field-test program with an assigned seed. -/
  | fieldTest (p : SiteId) (out : Option TestEnd)
  /-- FIELD_TEST_YIELD, by R440. A test yields to a wake, step start or access within 2 µs. -/
  | fieldTestYield (p : SiteId)
  /-- FIELD_TEST_VOTE, by R441. Digests of one seed are compared and an outvoted site is retired. -/
  | fieldTestVote
  /-- JOURNAL_COMMIT, by R435. Every 1 ms Privet commits the journal buffer to flash. -/
  | journalCommit
  /-- PRIVET_WATCHDOG_RESET, by R446. The Privet watchdog expires and the controller restarts. -/
  | privetWatchdogReset
  /-- RESET_N, by R531. RESET_N low for 10 µs or more starts a device reset. -/
  | resetN (edges : Word32)
  /-- POWER_ON_RESET, by R445. Input applied while Privet is unpowered clears all volatile state and starts S0. -/
  | powerOnReset (b : Fin 2) (decivolts : Fin 1024)
  /-- INVENTORY_READ, by R529. A two-wire read of the inventory EEPROM. -/
  | inventoryRead (off : Fin 256)
  /-- IDENTITY_READ, by R460. Returns the device certificate. -/
  | identityRead
  /-- STATUS_READ, by R460. Returns SREQ_CTR, HSS index, SVN, slot and debug state. -/
  | statusRead
  /-- SESSION_OPEN, by R462. Opens a ROUTINE session by ECDH with signed response. -/
  | sessionOpen (ecdsa : Bool) (lms : Bool)
  /-- FW_UPDATE, by R447. Writes and verifies a firmware image in the inactive slot and updates the pointer. -/
  | fwUpdate (ecdsa : Bool) (lms : Bool) (imageOk : Bool) (flashOk : Bool)
  /-- DEBUG_UNLOCK, by R477. Sets DEBUG_PENDING for the next device reset. -/
  | debugUnlock (ecdsa : Bool) (lms : Bool)
  /-- GRADE_READ, by R460. Returns the fused grade and limits. -/
  | gradeRead (ecdsa : Bool) (lms : Bool)
  /-- DEVICE_RESET, by R445. A signed request starts a device reset 1 ms after completion. -/
  | deviceReset (ecdsa : Bool) (lms : Bool)
  /-- SET_AUTHORITY, by R461. Replaces the authority public keys. -/
  | setAuthority (ecdsa : Bool) (lms : Bool)
  /-- SET_CONFIG, by R460. Writes allowed PW configuration entries to flash and applies them. -/
  | setConfig (ecdsa : Bool) (lms : Bool)
  /-- SESSION_CLOSE, by R463. Ends the ROUTINE session. -/
  | sessionClose
  /-- SET_CAP, by R369. Accepts a rack cap, clamped to its range. -/
  | setCap
  /-- TELEMETRY_READ, by R466. Returns the telemetry block or starts periodic pushes. -/
  | telemetryRead
  /-- TELEMETRY, by R466. A TELEMETRY message is pushed every PERIOD_MS. -/
  | telemetryPush (k : ConnId)
  /-- JOURNAL_READ, by R460. Returns journal records from FROM_SEQ. -/
  | journalRead
  /-- LOG_READ, by R460. Returns field defect log entries. -/
  | logRead
  /-- STEER_TABLE, by R460. Installs or deletes a steering group member table. -/
  | steerTable (key : Option (List Byte))
  /-- MACSEC_KEY, by R464. Installs an unwrapped MACsec key in an association. -/
  | macsecKey (key : Option (List Byte))
  /-- ATTEST, by R476. Returns a signed attestation report. -/
  | attest
  /-- SESSION_LIFETIME, by R463. A session ends when LIFETIME_S expires. -/
  | sessionLifetime (src : Fin 4100)
  /-- COUNTER_LO_READ, by R487. Reading a counter's LO word latches its high bits. -/
  | counterLoRead (conn : ConnId) (b : BankId) (n : CounterSel)
  /-- CLR, by R487. CNT_CTL CLR zeroes P0 to P7 and every window. -/
  | counterClr (conn : ConnId) (b : BankId)
  /-- BANDWIDTH_WINDOW_END, by R491. When F0 reaches a multiple of 2^BW_LOG2 LAST and MAX update. -/
  | bandwidthWindowEnd (b : BankId)
  /-- COLLECTOR_SWEEP, by R494. The collector copies every enabled bank's shadow into its stream ring. -/
  | collectorSweep
  /-- COL_DEV_CLAIM, by R493. A connection claims the device stream with an owned Hedge number. -/
  | colDevClaim (conn : ConnId) (h : HedgeId)
  /-- TAG_WB, by R500. A tagged instruction's WB stamp writes its entry into the tag buffer. -/
  | tagWb (c : CoreId) (ready : Word32) (start : Word32) (fin : Word32) (wb : Word32)
  /-- DROOP_DEASSERT, by R359. A cluster's droop detectors all deassert as the core voltage recovers, so STRETCHING and DET clear and periods stop being stretched. -/
  | droopDeassert (cl : ClusterId) (periods : Word32)
  /-- PRIVET_WATCHDOG_RETURN, by R446. The Privet controller returns from its watchdog restart, treats received grants as dropped, sends RETURN and resumes step changes, Mailbox and MGMT service. -/
  | privetWatchdogReturn
  /-- PRIVET_WATCHDOG_ESCALATION, by R446. A Privet that has not returned within 500 ms of a watchdog reset raises FATAL cause 0x05, and the hardware continues at LIMBASE. -/
  | privetWatchdogEscalation
  /-- PRIVET_POWER_DOWN, by R444. Both bars fall below 18 V after POWER_FAIL, the standby converter stops and Privet loses regulation, so a later return of input is a power-on reset. -/
  | privetPowerDown
  /-- BAR_REVERSED, by R322. A bar that is not GOOD enters or leaves REVERSED, asserting or releasing REV_IN_N, including when both bars are reversed and Privet is unpowered. -/
  | barReversed (b : Fin 2) (st : BarState) (decivolts : Fin 1024)
  /-- BAR_EXCURSION, by R322. A GOOD bar rises to between 40 V and 42 V, stays GOOD, sets BAR_OVER and is journalled. -/
  | barExcursion (b : Fin 2) (decivolts : Fin 1024)
  /-- RESET_N_RELEASE, by R531. RESET_N returns high after a device reset or at power-on, and bring-up starts again at S0. -/
  | resetNRelease
  /-- LOCK_FAIL, by R366. A generator's lock does not complete within twice its bound; LOCK_FAIL is set, and a second failure trips the Spring with CTRL_FAULT. -/
  | lockFail (cl : ClusterId)
  /-- DEBUG_CONNECTOR_ACCESS, by R477. While DEBUG is set, the debug connector reads or writes a block outside Privet, including scratchpads and Mere. -/
  | debugConnectorAccess (op : DebugOp)
  deriving DecidableEq, Repr

end Sys2Proof
end

