-- ==== Sys2Proof/Decode.lean ====
section
/-!
DEFINITION. The command that a word of the opcode table spells. The table gives its rows no bits: a command of this block arrives as a
Rasis message, a pin or an event, and the fields of an instruction word are read out where it executes (R85, R105, R106).
-/
namespace Sys2Proof

/-- No row of the table gives bits, so no word spells a command. -/
def decodeTableWord (_nbits _w : Nat) : Option Instr := none

end Sys2Proof
end

