-- ==== Sys2Proof/Machine/Table.lean ====
section
/-!
DEFINITION. Sparse tables: lists of (key, value) with strictly rising keys, the one form in which the model keeps
everything the module has many of. A key that is not listed reads as a default the reader supplies, and writing that
default removes the entry, so that equal tables are equal data. Beside them, the helpers over bits and bytes that
every page and memory access goes through.
-/
namespace Sys2Proof.Machine

/-- A sparse table from unit numbers or addresses to values. -/
abbrev Tbl (α : Type) := List (Nat × α)

/-- The entry at key `k`, if listed. -/
def tblFind {α : Type} (k : Nat) : Tbl α → Option α
  | [] => none
  | (a, v) :: t => if a = k then some v else tblFind k t

/-- What key `k` reads as, `d` where it is not listed. -/
def tblGet {α : Type} (d : α) (t : Tbl α) (k : Nat) : α :=
  match tblFind k t with
  | some v => v
  | none => d

/-- The table with `v` listed at `k`. -/
def tblInsert {α : Type} (k : Nat) (v : α) : Tbl α → Tbl α
  | [] => [(k, v)]
  | (a, w) :: t => if a = k then (k, v) :: t else if k < a then (k, v) :: (a, w) :: t else (a, w) :: tblInsert k v t

/-- The table with nothing listed at `k`. -/
def tblErase {α : Type} (k : Nat) (t : Tbl α) : Tbl α := t.filter (fun e => decide (e.1 ≠ k))

/-- Writing `v` at `k`, where `d` is what an unlisted key reads as. -/
def tblPut {α : Type} [DecidableEq α] (d : α) (t : Tbl α) (k : Nat) (v : α) : Tbl α :=
  if v = d then tblErase k t else tblInsert k v t

/-- Every key of the table at or above `lo`: with rising heads, the canonical order. -/
def tblAbove {α : Type} (lo : Nat) : Tbl α → Bool
  | [] => true
  | (a, _) :: t => decide (lo ≤ a) && tblAbove (a + 1) t

/-- The canonical form: keys strictly rising, and no entry equal to what an unlisted key reads as. -/
def tblWf {α : Type} [DecidableEq α] (d : α) (t : Tbl α) : Bool :=
  tblAbove 0 t && t.all (fun e => decide (e.2 ≠ d))

/-- Drops every entry whose key lies in [lo, hi). -/
def tblDrop {α : Type} (lo hi : Nat) (t : Tbl α) : Tbl α :=
  t.filter (fun e => decide (e.1 < lo ∨ hi ≤ e.1))

/-- Field of `len` bits at bit `lo` of a number. -/
def bitsOf (w lo len : Nat) : Nat := (w / 2 ^ lo) % 2 ^ len

/-- The number as a two's-complement integer of `w` bits. -/
def signedOf (w x : Nat) : Int :=
  let y := x % 2 ^ w
  if y < 2 ^ (w - 1) then (y : Int) else (y : Int) - ((2 ^ w : Nat) : Int)

/-- The two's-complement code of `w` bits of an integer. -/
def unsignedOf (w : Nat) (x : Int) : Nat := (x % ((2 ^ w : Nat) : Int)).toNat

/-- The little-endian number of a list of bytes (R7). -/
def leNat : List Byte → Nat
  | [] => 0
  | b :: t => b.toNat + 256 * leNat t

/-- The `n` low bytes of a number, little-endian (R7). -/
def leBytes : Nat → Nat → List Byte
  | 0, _ => []
  | n + 1, x => BitVec.ofNat 8 x :: leBytes n (x / 256)

/-- The big-endian number of a list of bytes, for network fields. -/
def beNat (l : List Byte) : Nat := leNat l.reverse

/-- The `n` low bytes of a number, big-endian, for network fields. -/
def beBytes (n x : Nat) : List Byte := (leBytes n x).reverse

/-- The first index below `n` that satisfies `p`. -/
def firstBelow (n : Nat) (p : Nat → Bool) : Option Nat := (List.range n).find? p

end Sys2Proof.Machine
end

