-- ==== Sys2Proof/Machine/Numerics.lean ====
section
/-!
DEFINITION. Number formats and accumulation, by R30 to R60: decoding every stored format to an exact value, rounding an
exact value once into a format, DA48 addition, the order modes, the drain, and the maximum and minimum selections.
An exact value is a dyadic number (a sign, a natural significand and a power of two), so no sum or product here is ever
rounded except where a rule rounds it.
-/
namespace Sys2Proof.Machine

/-- An exact numeric value: NaN, an infinity, or (−1)^neg × m × 2^e. A zero keeps its sign. -/
inductive Num where
  | nan
  | inf (neg : Bool)
  | fin (neg : Bool) (m : Nat) (e : Int)
  deriving DecidableEq, Repr

/-- The format codes of R30. -/
inductive Fmt where
  | fp4 | e4m3 | e5m2 | bf16 | fp16 | fp32 | int8 | da48 | int32 | int48
  deriving DecidableEq, Repr

/-- The format a 4-bit code names, by R30; `none` for a reserved code. -/
def fmtOf : Nat → Option Fmt
  | 0 => some .fp4
  | 1 => some .e4m3
  | 2 => some .e5m2
  | 3 => some .bf16
  | 4 => some .fp16
  | 5 => some .fp32
  | 6 => some .int8
  | 7 => some .da48
  | 8 => some .int32
  | 9 => some .int48
  | _ => none

/-- Stored bytes of one element, by R30 and R36 (FP4 packs two elements in a byte, and counts 1 here). -/
def fmtBytes : Fmt → Nat
  | .fp4 | .e4m3 | .e5m2 | .int8 => 1
  | .bf16 | .fp16 => 2
  | .fp32 | .int32 => 4
  | .da48 | .int48 => 8

/-- The integer formats. -/
def fmtIsInt : Fmt → Bool
  | .int8 | .int32 | .int48 => true
  | _ => false

/-- The input role of R30. -/
def fmtInput : Fmt → Bool
  | .fp4 | .e4m3 | .e5m2 | .bf16 | .fp16 | .fp32 | .int8 => true
  | _ => false

/-- The initial-value role of R30, `int` for an operation in integer mode. -/
def fmtBias (int : Bool) : Fmt → Bool
  | .bf16 | .fp16 | .fp32 | .da48 => !int
  | .int32 | .int48 => int
  | _ => false

/-- The output role of R30 with the mode restriction of R52: integer-mode results drain as INT48, INT32, FP32 or DA48. -/
def fmtOutput (int : Bool) : Fmt → Bool
  | .e4m3 | .e5m2 | .bf16 | .fp16 => !int
  | .fp32 | .da48 => true
  | .int32 | .int48 => int
  | _ => false

/-- The pairing rule of R31. -/
def fmtPair : Fmt → Fmt → Bool
  | .fp4, .fp4 | .bf16, .bf16 | .fp16, .fp16 | .fp32, .fp32 | .int8, .int8 => true
  | .e4m3, .e4m3 | .e4m3, .e5m2 | .e5m2, .e4m3 | .e5m2, .e5m2 => true
  | _, _ => false

/-- Bit width of a code of the format; DA48 here is the 48-bit value of R35. -/
def fmtWidth : Fmt → Nat
  | .fp4 => 4
  | .e4m3 | .e5m2 | .int8 => 8
  | .bf16 | .fp16 => 16
  | .fp32 | .int32 => 32
  | .da48 | .int48 => 48

/-- A floating format as R32 and R35 give it: significand bits with the hidden one, the power of two of the smallest
subnormal, the code of the largest finite magnitude, of infinity (where it has one) and of the canonical NaN (R55). -/
structure FSpec where
  w    : Nat
  p    : Nat
  qmin : Int
  max  : Nat
  inf  : Option Nat
  nan  : Nat
  deriving DecidableEq, Repr

/-- The parameters of each floating format, by R32, R35 and R55. -/
def fspec : Fmt → FSpec
  | .fp4  => ⟨4, 2, -1, 0x7, none, 0x7⟩
  | .e4m3 => ⟨8, 4, -9, 0x7E, none, 0x7F⟩
  | .e5m2 => ⟨8, 3, -16, 0x7B, some 0x7C, 0x7E⟩
  | .bf16 => ⟨16, 8, -133, 0x7F7F, some 0x7F80, 0x7FC0⟩
  | .fp16 => ⟨16, 11, -24, 0x7BFF, some 0x7C00, 0x7E00⟩
  | .fp32 => ⟨32, 24, -149, 0x7F7FFFFF, some 0x7F800000, 0x7FC00000⟩
  | _     => ⟨48, 37, -1058, 0x7FEFFFFFFFFF, some 0x7FF000000000, 0x7FF800000000⟩

/-- The value of a code of a floating format, subnormals exact (R32, R33, R35). -/
def fdecode (f : FSpec) (code : Nat) : Num :=
  let neg := decide (code / 2 ^ (f.w - 1) % 2 = 1)
  let mag := code % 2 ^ (f.w - 1)
  if f.max < mag then (if f.inf = some mag then .inf neg else .nan)
  else if mag < 2 ^ (f.p - 1) then .fin neg mag f.qmin
  else .fin neg (mag % 2 ^ (f.p - 1) + 2 ^ (f.p - 1)) (f.qmin + (mag / 2 ^ (f.p - 1) : Nat) - 1)

/-- Bits needed to write a number. -/
def bitLen (m : Nat) : Nat := if m = 0 then 0 else Nat.log2 m + 1

/-- m ÷ 2^sh rounded to nearest, ties to even. -/
def rneShift (m sh : Nat) : Nat :=
  let q := m / 2 ^ sh
  let r := m % 2 ^ sh
  if 2 * r < 2 ^ sh then q
  else if 2 ^ sh < 2 * r then q + 1
  else if sh = 0 then q
  else q + q % 2

/-- m ÷ 2^sh rounded up. -/
def ceilShift (m sh : Nat) : Nat := (m + 2 ^ sh - 1) / 2 ^ sh

/-- The magnitude code a positive dyadic m × 2^e rounds to: exact above the quantum, otherwise by `rnd`. The code counts
quanta above the subnormals, so a carry out of the significand lands on the next exponent. -/
def magCode (rnd : Nat → Nat → Nat) (f : FSpec) (m : Nat) (e : Int) : Nat :=
  if m = 0 then 0
  else
    let top : Int := e + (bitLen m : Int) - 1
    let q : Int := max (top - ((f.p : Int) - 1)) f.qmin
    let m' := if q ≤ e then m * 2 ^ (e - q).toNat else rnd m (q - e).toNat
    (q - f.qmin).toNat * 2 ^ (f.p - 1) + m'

/-- Sets the sign bit of a code. -/
def withSign (f : FSpec) (neg : Bool) (mag : Nat) : Nat := if neg then mag + 2 ^ (f.w - 1) else mag

/-! ## Numeric flags, by R60 -/

def flagEmpty : Nat := 1
def flagInvalid : Nat := 2
def flagNanOut : Nat := 4
def flagOverflow : Nat := 8
def flagSaturate : Nat := 16

/-- Rounds an exact value once into a floating output format, with the overflow, infinity and NaN rules of R53 to R55.
Answers the code and the flags raised. -/
def fround (f : FSpec) (sat : Bool) (x : Num) : Nat × Nat :=
  match x with
  | .nan => (f.nan, flagNanOut)
  | .inf neg =>
    match f.inf with
    | some c => (withSign f neg c, 0)
    | none => if sat then (withSign f neg f.max, flagSaturate) else (f.nan, flagNanOut)
  | .fin neg m e =>
    let c := magCode rneShift f m e
    if c ≤ f.max then (withSign f neg c, 0)
    else if sat then (withSign f neg f.max, flagSaturate)
    else match f.inf with
      | some i => (withSign f neg i, flagOverflow)
      | none => (f.nan, flagOverflow ||| flagNanOut)

/-! ## Exact arithmetic -/

/-- The signed significand of a finite value. -/
def sgn (neg : Bool) (m : Nat) : Int := if neg then -(m : Int) else m

/-- x + y of two dyadics (significand, exponent), exact. -/
def dyAdd (x y : Int × Int) : Int × Int :=
  if x.2 ≤ y.2 then (x.1 + y.1 * 2 ^ (y.2 - x.2).toNat, x.2)
  else (x.1 * 2 ^ (x.2 - y.2).toNat + y.1, y.2)

/-- x ≤ y of two dyadics. -/
def dyLe (x y : Int × Int) : Bool := decide ((dyAdd x (-y.1, y.2)).1 ≤ 0)

/-- The exact product of two values, with the special cases of R40. The second component is INVALID. -/
def numMul (a b : Num) : Num × Nat :=
  match a, b with
  | .nan, _ | _, .nan => (.nan, 0)
  | .inf s, .inf t => (.inf (s != t), 0)
  | .inf s, .fin t m _ => if m = 0 then (.nan, flagInvalid) else (.inf (s != t), 0)
  | .fin t m _, .inf s => if m = 0 then (.nan, flagInvalid) else (.inf (s != t), 0)
  | .fin s m e, .fin t n d => (.fin (s != t) (m * n) (e + d), 0)

/-- The dyadic of a value, zero for a special. -/
def numDy : Num → Int × Int
  | .fin neg m e => (sgn neg m, e)
  | _ => (0, 0)

def numIsNan : Num → Bool
  | .nan => true
  | _ => false

def numIsInf (neg : Bool) : Num → Bool
  | .inf n => n == neg
  | _ => false

def numFinite : Num → Bool
  | .fin _ _ _ => true
  | _ => false

/-- The exact sum of a list of values, with the special cases of R40: NaN wins, opposite infinities give NaN and INVALID,
a zero sum is −0 only when every term is −0. The empty list sums to +0. -/
def numSum (l : List Num) : Num × Nat :=
  if l.any numIsNan then (.nan, 0)
  else
    match l.any (numIsInf false), l.any (numIsInf true) with
    | true, true => (.nan, flagInvalid)
    | true, false => (.inf false, 0)
    | false, true => (.inf true, 0)
    | false, false =>
      let d := l.foldl (fun acc x => dyAdd acc (numDy x)) (0, 0)
      if d.1 = 0 then
        (.fin (!l.isEmpty && l.all (fun x => match x with | .fin s m _ => s && m == 0 | _ => false)) 0 0, 0)
      else (.fin (decide (d.1 < 0)) d.1.natAbs d.2, 0)

/-- One group, by R38 to R40: the exact sum of its products, and the flags it raises. -/
def groupSum (ps : List (Num × Num)) : Num × Nat :=
  let prods := ps.map (fun p => numMul p.1 p.2)
  let s := numSum (prods.map Prod.fst)
  (s.1, prods.foldl (fun f p => f ||| p.2) s.2)

/-! ## DA48, by R35 to R41 -/

/-- The value of a 48-bit DA48 code. -/
def daVal (c : Nat) : Num := fdecode (fspec .da48) c

/-- The canonical NaN of DA48 (R35). -/
def daNan : Nat := 0x7FF800000000

/-- A value rounded into DA48 by R39 and R41; a finite value that overflows gives an infinity and OVERFLOW. -/
def daRound (x : Num) : Nat × Nat :=
  match fround (fspec .da48) false x with
  | (c, fl) => (c, fl &&& flagOverflow)

/-- Addition of DA48 codes, by R41. Opposite infinities give NaN and INVALID; x + (−x) is +0; (−0) + (−0) is −0. -/
def daAdd (a b : Nat) : Nat × Nat :=
  let s := numSum [daVal a, daVal b]
  let r := daRound s.1
  (r.1, s.2 ||| r.2)

/-- Addition of DA48 codes whose rounding is toward +infinity, for Y of R78 (both operands non-negative). -/
def daAddUp (a b : Nat) : Nat :=
  match (numSum [daVal a, daVal b]).1 with
  | .fin false m e =>
    let c := magCode ceilShift (fspec .da48) m e
    if c ≤ (fspec .da48).max then c else 0x7FF000000000
  | .fin true _ _ => 0
  | .inf _ => 0x7FF000000000
  | .nan => daNan

/-- What a DA48 container reads as, by R37. -/
def daOfContainer (x : Nat) : Nat :=
  let c := x / 2 ^ 16 % 2 ^ 48
  if c % 2 ^ 47 = 0x7FF000000000 ∧ x % 2 ^ 16 ≠ 0 then daNan else c

/-- The 8-byte container of a DA48 code, by R36. -/
def daContainer (c : Nat) : Nat := c * 2 ^ 16

/-- A conversion to DA48 of an element of a floating format, exact by R56. -/
def daOfFmt (f : Fmt) (code : Nat) : Nat :=
  match f with
  | .da48 => daOfContainer code
  | _ => (daRound (fdecode (fspec f) code)).1

/-! ## Order modes, by R42 to R46 -/

/-- An addition of DA48 codes with its flags: `daAdd`, or `upAdd` where every rounding is toward +infinity. -/
abbrev Adder := Nat → Nat → Nat × Nat

/-- Addition rounded toward +infinity, for Y of R78; Y raises no flag. -/
def upAdd : Adder := fun a b => (daAddUp a b, 0)

/-- Adds with flags collected. -/
def addBy (add : Adder) (acc : Nat × Nat) (x : Nat) : Nat × Nat :=
  let r := add acc.1 x
  (r.1, acc.2 ||| r.2)

def daAddF (acc : Nat × Nat) (x : Nat) : Nat × Nat := addBy daAdd acc x

/-- The insertion of one group into the stack of R43: the carry climbs while a level is occupied. Answers the new stack,
what leaves the top of it, and the flags. -/
def ptPush (add : Adder) : List (Option Nat) → Nat → Nat → List (Option Nat) × Option Nat × Nat
  | [], x, fl => ([], some x, fl)
  | none :: t, x, fl => (some x :: t, none, fl)
  | some y :: t, x, fl =>
    let r := add y x
    match ptPush add t r.1 (fl ||| r.2) with
    | (t', out, fl') => (none :: t', out, fl')

/-- The final combination of R43 over the stack, from level 0 up. -/
def ptFinish (add : Adder) : List (Option Nat) → Option Nat → Nat → Option Nat × Nat
  | [], r, fl => (r, fl)
  | none :: t, r, fl => ptFinish add t r fl
  | some y :: t, none, fl => ptFinish add t (some y) fl
  | some y :: t, some r, fl =>
    let a := add y r
    ptFinish add t (some a.1) (fl ||| a.2)

/-- One accumulator in PT mode: the groups enter in order, then the levels combine into the top value (R43). -/
def ptAccum (add : Adder) (top : Nat) (groups : List Nat) : Nat × Nat :=
  let st := groups.foldl (fun (a : List (Option Nat) × Nat × Nat) g =>
      match ptPush add a.1 g 0 with
      | (stk, none, fl) => (stk, a.2.1, a.2.2 ||| fl)
      | (stk, some x, fl) =>
        let r := add a.2.1 x
        (stk, r.1, a.2.2 ||| fl ||| r.2))
    (List.replicate 20 none, top, 0)
  match ptFinish add st.1 none st.2.2 with
  | (none, fl) => (st.2.1, fl)
  | (some r, fl) =>
    let a := add st.2.1 r
    (a.1, fl ||| a.2)

/-- Elements at even positions, then odd: the lanes of R44. -/
def lanes {α : Type} : List α → List α × List α
  | [] => ([], [])
  | [x] => ([x], [])
  | x :: y :: t => let r := lanes t; (x :: r.1, y :: r.2)

/-- One accumulator in SO mode: two lanes for the formats that complete a group every cycle, else one (R44). -/
def soAccum (add : Adder) (twoLanes : Bool) (top : Nat) (groups : List Nat) : Nat × Nat :=
  if twoLanes then
    let ls := lanes groups
    let l0 := ls.1.foldl (addBy add) (top, 0)
    let l1 := ls.2.foldl (addBy add) (0, 0)
    let r := add l0.1 l1.1
    (r.1, l0.2 ||| l1.2 ||| r.2)
  else groups.foldl (addBy add) (top, 0)

/-- Products per group, by R38. -/
def groupSize : Fmt → Nat
  | .fp4 => 8
  | _ => 4

/-- Local cycles per group, by R38. -/
def groupCycles : Fmt → Nat
  | .bf16 | .fp16 => 2
  | .fp32 => 8
  | _ => 1

/-- Two lanes in SO mode, by R44: FP4 and FP8. -/
def twoLane : Fmt → Bool
  | .fp4 | .e4m3 | .e5m2 => true
  | _ => false

/-- The first `n` elements taken and the rest, `n` at a time: runs of `n` consecutive elements, the last one short. The
first argument bounds the number of runs. -/
def chunks {α : Type} (n : Nat) : Nat → List α → List (List α)
  | 0, _ => []
  | _ + 1, [] => []
  | k + 1, x :: t => (x :: t).take n :: chunks n k ((x :: t).drop n)

/-- The elements of part `r` of `n`, dealt out in K-beats of 32 (R45). -/
def partOf {α : Type} (n r : Nat) (l : List α) : List α :=
  ((chunks 32 l.length l).zipIdx.filterMap (fun b => if b.2 % n = r then some b.1 else none)).flatten

/-- The combination of the parts of a K-split, by R45. -/
def combineParts (add : Adder) (parts : List (Nat × Nat)) : Nat × Nat :=
  match parts with
  | [a] => a
  | [a, b] => let r := add a.1 b.1; (r.1, a.2 ||| b.2 ||| r.2)
  | [a, b, c, d] =>
    let x := add a.1 b.1
    let y := add c.1 d.1
    let r := add x.1 y.1
    (r.1, a.2 ||| b.2 ||| c.2 ||| d.2 ||| x.2 ||| y.2 ||| r.2)
  | _ => (0, 0)

/-! ## Integer mode, by R51 and R52 -/

/-- The limit of the 48-bit accumulator, by R51. -/
def intLimit : Int := 2 ^ 47 - 1

/-- Saturation of an accumulator value. -/
def intSat (x : Int) : Int × Nat :=
  if intLimit < x then (intLimit, flagSaturate)
  else if x < -intLimit then (-intLimit, flagSaturate)
  else (x, 0)

/-- One saturating addition. -/
def intAddF (acc : Int × Nat) (x : Int) : Int × Nat :=
  let r := intSat (acc.1 + x)
  (r.1, acc.2 ||| r.2)

/-- The combination of integer parts, by R51. -/
def intCombine (parts : List (Int × Nat)) : Int × Nat :=
  match parts with
  | [a] => a
  | [a, b] => let r := intAddF a b.1; (r.1, r.2 ||| b.2)
  | [a, b, c, d] =>
    let x := intAddF a b.1
    let y := intAddF c d.1
    let r := intAddF x y.1
    (r.1, x.2 ||| b.2 ||| y.2 ||| d.2 ||| r.2)
  | _ => (0, 0)

/-- The exact value of an integer. -/
def numOfInt (x : Int) : Num := .fin (decide (x < 0)) x.natAbs 0

/-- The integer a value rounds to, to nearest even; specials are the caller's. -/
def numToInt : Num → Int
  | .fin neg m e =>
    if 0 ≤ e then sgn neg (m * 2 ^ e.toNat) else sgn neg (rneShift m (-e).toNat)
  | _ => 0

/-- Saturation of an integer into `w` bits of two's complement, with SATURATE where it changes the value. -/
def satInt (w : Nat) (x : Int) : Nat × Nat :=
  let hi : Int := 2 ^ (w - 1) - 1
  let lo : Int := -(2 ^ (w - 1))
  if hi < x then (unsignedOf w hi, flagSaturate)
  else if x < lo then (unsignedOf w lo, flagSaturate)
  else (unsignedOf w x, 0)

/-! ## The drain, by R52 to R55 -/

/-- One element of a tile: a DA48 code, or a 48-bit integer. The stored bytes as a number, and the flags. -/
def drainElem (int : Bool) (f : Fmt) (sat : Bool) (cell : Int) : Nat × Nat :=
  if int then
    match f with
    | .int48 => (unsignedOf 64 cell, 0)
    | .int32 => satInt 32 cell
    | .da48 => (daContainer (fround (fspec .da48) false (numOfInt cell)).1, 0)
    | _ => ((fround (fspec .fp32) false (numOfInt cell)).1, 0)
  else
    match f with
    | .da48 => if numIsNan (daVal cell.toNat) then (daContainer daNan, flagNanOut) else (daContainer cell.toNat, 0)
    | _ => fround (fspec f) sat (daVal cell.toNat)

/-! ## Comparison and selection, by R58 and R59 -/

/-- a < b of two values that are not NaN; −0 and +0 are equal. -/
def numLt (a b : Num) : Bool :=
  match a, b with
  | .nan, _ | _, .nan => false
  | .inf s, .inf t => s && !t
  | .inf s, .fin _ _ _ => s
  | .fin _ _ _, .inf t => !t
  | .fin s m e, .fin t n d => !(dyLe (sgn t n, d) (sgn s m, e))

/-- The selection of R59 over (value, code, index) triples; `lt` is the order in which the winner is the greatest. -/
def pickBy (lt : Num → Num → Bool) (a b : Num × Nat × Nat) : Num × Nat × Nat :=
  if a.2.2 = 0xFFFFFFFF then b
  else if b.2.2 = 0xFFFFFFFF then a
  else match numIsNan a.1, numIsNan b.1 with
    | true, true => if a.2.2 < b.2.2 then a else b
    | true, false => b
    | false, true => a
    | false, false =>
      if lt b.1 a.1 then a
      else if lt a.1 b.1 then b
      else if a.2.2 < b.2.2 then a else b

/-- max_pick of R59. -/
def maxPick : Num × Nat × Nat → Num × Nat × Nat → Num × Nat × Nat := pickBy numLt

/-- min_pick of R59. -/
def minPick : Num × Nat × Nat → Num × Nat × Nat → Num × Nat × Nat := pickBy (fun a b => numLt b a)

/-! ## Transcendental results within their stated bounds, by R84 and R113

The rules bound the error and state no value. The helpers below enclose the exact result between two dyadics; a free code is
taken where it lies within the bound of every value in that enclosure, and the nearest code otherwise. An exact result that is
no dyadic is so far from every code's bound that the width of the enclosure excludes no code that the bound admits. -/

/-- Integer square root by bits, from bit `k − 1` down: the largest r with r² ≤ n, given r starts below. -/
def isqrtBits (n : Nat) : Nat → Nat → Nat
  | 0, r => r
  | k + 1, r =>
    let c := r + 2 ^ k
    if c * c ≤ n then isqrtBits n k c else isqrtBits n k r

/-- The largest r with r² ≤ n. -/
def isqrt (n : Nat) : Nat := isqrtBits n (bitLen n / 2 + 1) 0

/-- Fraction bits of the fixed-point enclosures. -/
def fxBits : Nat := 128

/-- 2^(0.b₁b₂…) in fixed point: `root` is 2^(2^−i), squared away one bit at a time. -/
def exp2Frac (frac : Nat) : Nat → Nat → Nat → Nat
  | 0, _, acc => acc
  | k + 1, root, acc =>
    let root' := isqrt (root * 2 ^ fxBits)
    exp2Frac frac k root' (if frac / 2 ^ k % 2 = 1 then acc * root' / 2 ^ fxBits else acc)

/-- 2^y for y = num × 2^−128, as a dyadic (significand, exponent) good to about 120 bits. -/
def exp2Dy (num : Int) : Int × Int :=
  let ip := num / 2 ^ fxBits
  let fp := (num % 2 ^ fxBits).toNat
  ((exp2Frac fp fxBits (2 * 2 ^ fxBits) (2 ^ fxBits) : Nat), ip - fxBits)

/-- Fixed-point value (floor of x × 2^128) of a dyadic. -/
def fxOfDy (x : Int × Int) : Int :=
  if 0 ≤ x.2 + fxBits then x.1 * 2 ^ (x.2 + fxBits).toNat else x.1 / 2 ^ (-(x.2 + fxBits)).toNat

/-- log2 e × 2^128, truncated. -/
def log2e : Int := 490923683258796565746369346286093237521

/-- Fraction bits of the squarings of log2. -/
def logBits : Nat := 200

/-- The fraction bits of log2 of y ∈ [1, 2) in fixed point, by repeated squaring. -/
def log2Bits : Nat → Nat → Nat → Nat
  | 0, _, acc => acc
  | k + 1, y, acc =>
    let y' := y * y / 2 ^ logBits
    if 2 * 2 ^ logBits ≤ y' then log2Bits k (y' / 2) (2 * acc + 1) else log2Bits k y' (2 * acc)

/-- log2 of m × 2^e for m ≠ 0, as a dyadic good to about 94 bits. -/
def log2Dy (m : Nat) (e : Int) : Int × Int :=
  let l := bitLen m
  let y := m * 2 ^ logBits / 2 ^ (l - 1)
  ((e + l - 1) * 2 ^ 96 + (log2Bits 96 y 0 : Nat), -96)

/-- |x − y| ≤ b of dyadics. -/
def dyNear (x y b : Int × Int) : Bool :=
  let d := dyAdd x (-y.1, y.2)
  dyLe ((d.1.natAbs : Int), d.2) b

/-- The spacing of FP32 at a value: its unit in the last place, as a dyadic. -/
def ulp32 (x : Int × Int) : Int × Int :=
  (1, max (x.2 + (bitLen x.1.natAbs : Int) - 24) (-149))

/-- The FP32 code for an exact result that lies within `slack` of `x`: the free code where it is a finite value within `b` of every
such result, else the nearest code. -/
def freeNear (free : Nat) (x b slack : Int × Int) : Nat × Nat :=
  let c := free % 2 ^ 32
  match fdecode (fspec .fp32) c with
  | .fin neg m e => if dyNear (sgn neg m, e) x (dyAdd b (-slack.1, slack.2)) then (c, 0)
      else fround (fspec .fp32) false (.fin (decide (x.1 < 0)) x.1.natAbs x.2)
  | _ => fround (fspec .fp32) false (.fin (decide (x.1 < 0)) x.1.natAbs x.2)

/-- What encloses a positive result of at most 2^−400. -/
def tiny : Int × Int := (1, -400)

/-- exp2 of an FP32 value, by R113: special values exact, otherwise within 2 ulp, or 2^−148 for a subnormal result. -/
def exp2Code (free : Nat) (x : Num) : Nat × Nat :=
  match x with
  | .nan => ((fspec .fp32).nan, flagNanOut)
  | .inf true => (0, 0)
  | .inf false => (0x7F800000, 0)
  | .fin neg m e =>
    let d : Int × Int := (sgn neg m, e)
    if m = 0 then (0x3F800000, 0)
    else if dyLe (128, 0) d then (0x7F800000, flagOverflow)
    else
      let fx := fxOfDy d
      let whole : Bool := fx % 2 ^ fxBits == 0 && dyLe (fx, -128) d && dyLe d (fx, -128)
      if dyLe d (-400, 0) then (if whole then (0, 0) else freeNear free tiny (1, -148) tiny)
      else if whole then fround (fspec .fp32) false (.fin false 1 (fx / 2 ^ fxBits))
      else
        let r := exp2Dy fx
        freeNear free r (if dyLe (1, -126) r then ((2 : Int), (ulp32 r).2) else (1, -148)) (1, r.2 + 16)

/-- log2 of an FP32 value, by R113: within 2 ulp where the result is at least 1 in magnitude, else within 2^−22. -/
def log2Code (free : Nat) (x : Num) : Nat × Nat :=
  match x with
  | .nan => ((fspec .fp32).nan, flagNanOut)
  | .inf false => (0x7F800000, 0)
  | .inf true => ((fspec .fp32).nan, flagNanOut ||| flagInvalid)
  | .fin neg m e =>
    if m = 0 then (0xFF800000, 0)
    else if neg then ((fspec .fp32).nan, flagNanOut ||| flagInvalid)
    else if m = 2 ^ (bitLen m - 1) ∧ e + (bitLen m : Int) - 1 = 0 then (0, 0)
    else
      let r := log2Dy m e
      let big := dyLe (1, 0) ((r.1.natAbs : Int), r.2)
      freeNear free r (if big then ((2 : Int), (ulp32 r).2) else (1, -22)) (if m = 2 ^ (bitLen m - 1) then (0, 0) else (1, -90))

/-- 1 ÷ √x of an FP32 value, by R113: within 1 ulp. -/
def rsqrtCode (free : Nat) (x : Num) : Nat × Nat :=
  match x with
  | .nan => ((fspec .fp32).nan, flagNanOut)
  | .inf false => (0, 0)
  | .inf true => ((fspec .fp32).nan, flagNanOut ||| flagInvalid)
  | .fin neg m e =>
    if m = 0 then (withSign (fspec .fp32) neg 0x7F800000, 0)
    else if neg then ((fspec .fp32).nan, flagNanOut ||| flagInvalid)
    else
      let m' := if e % 2 = 0 then m else 2 * m
      let e' := if e % 2 = 0 then e else e - 1
      let r : Int × Int := ((isqrt (2 ^ 512 / m') : Nat), -256 - e' / 2)
      freeNear free r ((1 : Int), (ulp32 r).2) (if r.1 * r.1 * m' = 2 ^ 512 then (0, 0) else (1, r.2 + 128))

end Sys2Proof.Machine
end

