-- ==== Sys2Proof/Config.lean ====
section
/-!
DEFINITION. What one implementation fixes and the manual leaves open: the free values of the model. Each is an opaque
constant without a body, so that no proof can see a value of it and a statement holds whatever it is. A step that draws
one applies it to the model's own counter `State.freeCtr` and advances the counter.
-/
namespace Sys2Proof.Config

/-- A free number: the value drawn at count `n` wherever a rule states a range or a choice and no value. -/
opaque freeNat : Nat → Nat

/-- The 384-bit values Privet's random generator and private keys produce (nonces, ephemeral keys, signatures), drawn at
count `n`: R462, R464, R475, R476 state their use and not their value. -/
opaque freeBits : Nat → Nat

/-- The SHA-384 measurement of the boot ROM (M0 of R471), whose content the manual does not give. -/
opaque romDigest : Nat

/-- What manufacture puts into the device certificate and R475 gives no value for: the part number, the identity keys, the digest of
the authority's keys and its two signatures, by their offsets in the certificate. -/
opaque certField : Nat → Nat

/-- The point of the wake sequencer's cycle of windows at the device reset of a reference edge, which R333 does not define. -/
opaque wakeCycle : Nat → Nat

end Sys2Proof.Config
end

