-- ==== Sys2Proof/Machine/Layout.lean ====
section
/-!
DEFINITION. The register layout: every page type of R518, and every field of its registers with its offset, bits,
access code (R8) and reset value, as the field tables of the chapters give them. A field whose table gives no reset
value ("—") resets to zero here (assumption 1, DESIGN CHOICE). Words whose value the machine derives from
its typed state (the sequencer's status, a queue's status, wide counters) are not fields: Registers.lean reads them.
-/
namespace Sys2Proof.Machine

/-- Access codes, by R8. -/
inductive Acc where
  | rw | ro | w1c | w1s | wo | rc | pw
  deriving DecidableEq, Repr

/-- One field of a register, or of `n` registers `stride` bytes apart. -/
structure Field where
  off    : Nat
  lo     : Nat
  len    : Nat
  acc    : Acc
  rst    : Nat
  n      : Nat := 1
  stride : Nat := 4
  deriving DecidableEq, Repr

/-- The page types of R518. Types 0x21, 0x25, 0x27 and 0x29 are one layout, `queue`, with its TYPE code as an argument. -/
inductive PageType where
  | router
  | arrays
  | scratchpad
  | vectorSet
  | sequencer
  | counterBank
  | tagBuffer
  | site
  | spring
  | clusterClock
  | fabricEngine
  | queue (code : Nat)
  | segmentTable
  | eventCounters
  | transferEngine
  | networkEngine
  | hedge
  | port
  | interface
  | macsec
  | rasis
  | connections
  | channel
  | mereSummary
  | collector
  | privetStatus
  | security
  | inputStage
  | reference
  | powerControl
  | clusterControl
  | bringUp
  | bootRing
  | error
  | fieldTest
  | siteEntries
  deriving DecidableEq, Repr

/-- BLK_ID.TYPE, by R510 and R518. -/
def pageCode : PageType → Nat
  | .router => 0x01
  | .arrays => 0x02
  | .scratchpad => 0x03
  | .vectorSet => 0x04
  | .sequencer => 0x05
  | .counterBank => 0x06
  | .tagBuffer => 0x07
  | .site => 0x08
  | .spring => 0x10
  | .clusterClock => 0x11
  | .fabricEngine => 0x20
  | .queue code => code
  | .segmentTable => 0x22
  | .eventCounters => 0x23
  | .transferEngine => 0x24
  | .networkEngine => 0x26
  | .hedge => 0x28
  | .port => 0x30
  | .interface => 0x31
  | .macsec => 0x32
  | .rasis => 0x33
  | .connections => 0x34
  | .channel => 0x38
  | .mereSummary => 0x39
  | .collector => 0x3C
  | .privetStatus => 0x40
  | .security => 0x41
  | .inputStage => 0x42
  | .reference => 0x43
  | .powerControl => 0x44
  | .clusterControl => 0x45
  | .bringUp => 0x46
  | .bootRing => 0x47
  | .error => 0x48
  | .fieldTest => 0x49
  | .siteEntries => 0x4A

/-- BLK_CAP.ISR_BITS, by R511: the BLK_ISR bits the page type uses. -/
def pageIsrBits : PageType → Nat
  | .router => 0
  | .arrays => 0
  | .scratchpad => 16
  | .vectorSet => 0
  | .sequencer => 0
  | .counterBank => 8
  | .tagBuffer => 0
  | .site => 0
  | .spring => 0
  | .clusterClock => 0
  | .fabricEngine => 0
  | .queue _ => 0
  | .segmentTable => 0
  | .eventCounters => 0
  | .transferEngine => 0
  | .networkEngine => 0
  | .hedge => 0
  | .port => 0
  | .interface => 0
  | .macsec => 0
  | .rasis => 0
  | .connections => 0
  | .channel => 0
  | .mereSummary => 0
  | .collector => 0
  | .privetStatus => 0
  | .security => 0
  | .inputStage => 0
  | .reference => 0
  | .powerControl => 0
  | .clusterControl => 0
  | .bringUp => 0
  | .bootRing => 0
  | .error => 0
  | .fieldTest => 0
  | .siteEntries => 0

/-- BLK_CAP.ERR_BITS, by R511: the BLK_ERR bits the page type uses. -/
def pageErrBits : PageType → Nat
  | .router => 4
  | .arrays => 5
  | .scratchpad => 4
  | .vectorSet => 0
  | .sequencer => 6
  | .counterBank => 0
  | .tagBuffer => 0
  | .site => 0
  | .spring => 5
  | .clusterClock => 3
  | .fabricEngine => 0
  | .queue _ => 3
  | .segmentTable => 0
  | .eventCounters => 0
  | .transferEngine => 0
  | .networkEngine => 3
  | .hedge => 0
  | .port => 4
  | .interface => 0
  | .macsec => 0
  | .rasis => 0
  | .connections => 0
  | .channel => 7
  | .mereSummary => 0
  | .collector => 0
  | .privetStatus => 0
  | .security => 5
  | .inputStage => 7
  | .reference => 0
  | .powerControl => 9
  | .clusterControl => 0
  | .bringUp => 4
  | .bootRing => 0
  | .error => 4
  | .fieldTest => 0
  | .siteEntries => 0

/-- BLK_CAP.ERRADDR, by R511: some error of the page writes BLK_ERRADDR. -/
def pageHasErrAddr : PageType → Bool
  | .router => false
  | .arrays => true
  | .scratchpad => true
  | .vectorSet => false
  | .sequencer => true
  | .counterBank => false
  | .tagBuffer => false
  | .site => false
  | .spring => false
  | .clusterClock => false
  | .fabricEngine => false
  | .queue _ => true
  | .segmentTable => false
  | .eventCounters => false
  | .transferEngine => false
  | .networkEngine => false
  | .hedge => false
  | .port => false
  | .interface => false
  | .macsec => false
  | .rasis => false
  | .connections => false
  | .channel => true
  | .mereSummary => false
  | .collector => false
  | .privetStatus => false
  | .security => false
  | .inputStage => false
  | .reference => false
  | .powerControl => false
  | .clusterControl => false
  | .bringUp => false
  | .bootRing => false
  | .error => false
  | .fieldTest => false
  | .siteEntries => false

/-! ## The common header, by R509 -/

/-- BLK_CTL.EVT_HOLD, by R512. -/
def Hdr.evtHold : Field := ⟨0x08, 0, 1, .rw, 0, 1, 4⟩
/-- BLK_ISR, by R514. -/
def Hdr.isr : Field := ⟨0x10, 0, 16, .w1c, 0, 1, 4⟩
/-- BLK_IEN, by R514. -/
def Hdr.ien : Field := ⟨0x14, 0, 32, .rw, 0, 1, 4⟩
/-- BLK_ERR, by R515. -/
def Hdr.err : Field := ⟨0x18, 0, 32, .w1c, 0, 1, 4⟩
/-- BLK_ERRADDR_LO, by R515. -/
def Hdr.errAddrLo : Field := ⟨0x1C, 0, 32, .ro, 0, 1, 4⟩
/-- BLK_ERRADDR_HI, by R515. -/
def Hdr.errAddrHi : Field := ⟨0x20, 0, 16, .ro, 0, 1, 4⟩
/-- BLK_ERRINFO, by R515. -/
def Hdr.errInfo : Field := ⟨0x24, 0, 32, .ro, 0, 1, 4⟩

/-! ## Page type 0x01, by R191 to R196 -/

/- Bits of BLK_ERR (e…) and BLK_ISR (i…). -/
def Rtr.eHdrCe : Nat := 0
def Rtr.eHdrUc : Nat := 1
def Rtr.eStaticParity : Nat := 2
def Rtr.eCreditErr : Nat := 3

def Rtr.ePath : Field := ⟨0x40, 0, 2, .ro, 0, 1, 4⟩
def Rtr.wPath : Field := ⟨0x40, 2, 2, .ro, 0, 1, 4⟩
def Rtr.nSel : Field := ⟨0x40, 4, 2, .ro, 0, 1, 4⟩
def Rtr.sSel : Field := ⟨0x40, 6, 2, .ro, 0, 1, 4⟩
def Rtr.pass : Field := ⟨0x40, 8, 1, .ro, 0, 1, 4⟩
def Rtr.mapSwitch : Field := ⟨0x44, 7, 1, .ro, 0, 1, 4⟩
def Rtr.escapeUsed : Field := ⟨0x44, 8, 1, .ro, 0, 1, 4⟩
def Rtr.occN : Field := ⟨0x48, 0, 3, .ro, 3, 1, 4⟩
def Rtr.occS : Field := ⟨0x48, 3, 3, .ro, 3, 1, 4⟩
def Rtr.occE : Field := ⟨0x48, 6, 3, .ro, 3, 1, 4⟩
def Rtr.occW : Field := ⟨0x48, 9, 3, .ro, 3, 1, 4⟩
def Rtr.occEK : Field := ⟨0x48, 12, 3, .ro, 3, 1, 4⟩
def Rtr.occWK : Field := ⟨0x48, 15, 3, .ro, 3, 1, 4⟩
def Rtr.bpCyc : Field := ⟨0x4C, 0, 32, .ro, 0, 1, 4⟩
def Rtr.slipCnt : Field := ⟨0x50, 0, 32, .ro, 0, 1, 4⟩
def Rtr.hdrCeCnt : Field := ⟨0x54, 0, 32, .ro, 0, 1, 4⟩
def Rtr.dropCnt : Field := ⟨0x58, 0, 32, .ro, 0, 1, 4⟩
def Rtr.chanValid : Field := ⟨0x100, 0, 1, .ro, 0, 40, 4⟩
def Rtr.chanInPort : Field := ⟨0x100, 1, 3, .ro, 0, 40, 4⟩
def Rtr.chanInCh : Field := ⟨0x100, 4, 3, .ro, 0, 40, 4⟩
def Rtr.chanSlots : Field := ⟨0x100, 8, 8, .ro, 0, 40, 4⟩
/-- The fields of the page type. -/
def Rtr.fields : List Field :=
  [Rtr.ePath, Rtr.wPath, Rtr.nSel, Rtr.sSel, Rtr.pass, Rtr.mapSwitch, Rtr.escapeUsed, Rtr.occN] ++
  [Rtr.occS, Rtr.occE, Rtr.occW, Rtr.occEK, Rtr.occWK, Rtr.bpCyc, Rtr.slipCnt, Rtr.hdrCeCnt] ++
  [Rtr.dropCnt, Rtr.chanValid, Rtr.chanInPort, Rtr.chanInCh, Rtr.chanSlots]

/-! ## Page type 0x02, by R89 to R96 -/

/- Bits of BLK_ERR (e…) and BLK_ISR (i…). -/
def Arr.eCsumMismatch : Nat := 0
def Arr.eAccCe : Nat := 1
def Arr.eAccUc : Nat := 2
def Arr.eOperandParity : Nat := 3
def Arr.eIllegalOp : Nat := 4

def Arr.rampLen : Field := ⟨0x40, 0, 3, .rw, 4, 1, 4⟩
def Arr.flags : Field := ⟨0x48, 0, 5, .w1c, 0, 1, 4⟩
def Arr.tileStalls : Field := ⟨0x50, 0, 32, .ro, 0, 1, 4⟩
def Arr.tileStallCyc : Field := ⟨0x54, 0, 32, .ro, 0, 1, 4⟩
def Arr.csumSkip : Field := ⟨0x58, 0, 32, .ro, 0, 1, 4⟩
def Arr.nullOps : Field := ⟨0x5C, 0, 32, .ro, 0, 1, 4⟩
def Arr.csumSub : Field := ⟨0x60, 0, 2, .ro, 0, 1, 4⟩
def Arr.csumSlot : Field := ⟨0x60, 2, 2, .ro, 0, 1, 4⟩
def Arr.csumRow : Field := ⟨0x60, 4, 5, .ro, 0, 1, 4⟩
def Arr.csumValid : Field := ⟨0x60, 9, 1, .ro, 0, 1, 4⟩
def Arr.descBase : Field := ⟨0x100, 0, 22, .rw, 0, 16, 16⟩
def Arr.descSrc : Field := ⟨0x100, 22, 2, .rw, 0, 16, 16⟩
def Arr.descFmt : Field := ⟨0x100, 24, 4, .rw, 0, 16, 16⟩
def Arr.descLayout : Field := ⟨0x100, 28, 2, .rw, 0, 16, 16⟩
def Arr.descStride : Field := ⟨0x104, 0, 22, .rw, 0, 16, 16⟩
def Arr.descScaleBase : Field := ⟨0x108, 0, 22, .rw, 0, 16, 16⟩
def Arr.descScaleStride : Field := ⟨0x10C, 0, 22, .rw, 0, 16, 16⟩
/-- The fields of the page type. -/
def Arr.fields : List Field :=
  [Arr.rampLen, Arr.flags, Arr.tileStalls, Arr.tileStallCyc, Arr.csumSkip, Arr.nullOps, Arr.csumSub, Arr.csumSlot] ++
  [Arr.csumRow, Arr.csumValid, Arr.descBase, Arr.descSrc, Arr.descFmt, Arr.descLayout, Arr.descStride, Arr.descScaleBase] ++
  [Arr.descScaleStride]

/-! ## Page type 0x03, by R159 to R163 -/

/- Bits of BLK_ERR (e…) and BLK_ISR (i…). -/
def Spm.eSpmCe : Nat := 0
def Spm.eSpmUc : Nat := 1
def Spm.ePatrolUc : Nat := 2
def Spm.ePayloadParity : Nat := 3

def Spm.scrub : Field := ⟨0x40, 0, 2, .ro, 0, 1, 4⟩
def Spm.retention : Field := ⟨0x40, 2, 1, .ro, 0, 1, 4⟩
def Spm.patrolPos : Field := ⟨0x40, 3, 11, .ro, 0, 1, 4⟩
def Spm.ceCnt : Field := ⟨0x44, 0, 32, .ro, 0, 1, 4⟩
def Spm.ucCnt : Field := ⟨0x48, 0, 32, .ro, 0, 1, 4⟩
def Spm.patrolSweeps : Field := ⟨0x4C, 0, 32, .ro, 0, 1, 4⟩
def Spm.dropCnt : Field := ⟨0x50, 0, 32, .ro, 0, 1, 4⟩
def Spm.dropLast : Field := ⟨0x54, 0, 32, .ro, 0, 1, 4⟩
def Spm.nakCnt : Field := ⟨0x58, 0, 32, .ro, 0, 1, 4⟩
def Spm.nakLast : Field := ⟨0x5C, 0, 32, .ro, 0, 1, 4⟩
def Spm.base64 : Field := ⟨0x100, 0, 16, .ro, 0, 16, 16⟩
def Spm.pondState : Field := ⟨0x100, 16, 2, .ro, 0, 16, 16⟩
def Spm.gen : Field := ⟨0x100, 18, 8, .ro, 0, 16, 16⟩
def Spm.srcHedge : Field := ⟨0x100, 26, 5, .ro, 0, 16, 16⟩
def Spm.len64 : Field := ⟨0x104, 0, 17, .ro, 0, 16, 16⟩
def Spm.evtEn : Field := ⟨0x104, 17, 1, .rw, 0, 16, 16⟩
def Spm.evtCtr : Field := ⟨0x104, 18, 12, .rw, 0, 16, 16⟩
def Spm.landed : Field := ⟨0x108, 0, 32, .ro, 0, 16, 16⟩
def Spm.thresh : Field := ⟨0x10C, 0, 32, .rw, 0, 16, 16⟩
/-- The fields of the page type. -/
def Spm.fields : List Field :=
  [Spm.scrub, Spm.retention, Spm.patrolPos, Spm.ceCnt, Spm.ucCnt, Spm.patrolSweeps, Spm.dropCnt, Spm.dropLast] ++
  [Spm.nakCnt, Spm.nakLast, Spm.base64, Spm.pondState, Spm.gen, Spm.srcHedge, Spm.len64, Spm.evtEn] ++
  [Spm.evtCtr, Spm.landed, Spm.thresh]

/-! ## Page type 0x04, by R135 to R137 -/

def Vec.flags : Field := ⟨0x40, 0, 5, .w1c, 0, 1, 4⟩
def Vec.setLastLo : Field := ⟨0x48, 0, 32, .ro, 0, 1, 4⟩
def Vec.setLastHi : Field := ⟨0x4C, 0, 32, .ro, 0, 1, 4⟩
def Vec.setOps : Field := ⟨0x50, 0, 32, .ro, 0, 1, 4⟩
def Vec.setTrunc : Field := ⟨0x54, 0, 32, .ro, 0, 1, 4⟩
def Vec.gthRows : Field := ⟨0x58, 0, 32, .ro, 0, 1, 4⟩
def Vec.gthHoldCyc : Field := ⟨0x5C, 0, 32, .ro, 0, 1, 4⟩
def Vec.genBase : Field := ⟨0x100, 0, 22, .rw, 0, 16, 32⟩
def Vec.genEsize : Field := ⟨0x100, 22, 3, .rw, 0, 16, 32⟩
def Vec.genMode : Field := ⟨0x100, 25, 2, .rw, 0, 16, 32⟩
def Vec.genFmt : Field := ⟨0x100, 27, 4, .rw, 0, 16, 32⟩
def Vec.genCount0 : Field := ⟨0x104, 0, 16, .rw, 0, 16, 32⟩
def Vec.genCount1 : Field := ⟨0x104, 16, 16, .rw, 0, 16, 32⟩
def Vec.genCount2 : Field := ⟨0x108, 0, 16, .rw, 0, 16, 32⟩
def Vec.genStride0 : Field := ⟨0x10C, 0, 23, .rw, 0, 16, 32⟩
def Vec.genStride1 : Field := ⟨0x110, 0, 23, .rw, 0, 16, 32⟩
def Vec.genStride2 : Field := ⟨0x114, 0, 23, .rw, 0, 16, 32⟩
def Vec.genSeedLo : Field := ⟨0x118, 0, 32, .rw, 0, 16, 32⟩
def Vec.genSeedHi : Field := ⟨0x11C, 0, 32, .rw, 0, 16, 32⟩
/-- The fields of the page type. -/
def Vec.fields : List Field :=
  [Vec.flags, Vec.setLastLo, Vec.setLastHi, Vec.setOps, Vec.setTrunc, Vec.gthRows, Vec.gthHoldCyc, Vec.genBase] ++
  [Vec.genEsize, Vec.genMode, Vec.genFmt, Vec.genCount0, Vec.genCount1, Vec.genCount2, Vec.genStride0, Vec.genStride1] ++
  [Vec.genStride2, Vec.genSeedLo, Vec.genSeedHi]

/-! ## Page type 0x05, by R132 to R134 -/

/- Bits of BLK_ERR (e…) and BLK_ISR (i…). -/
def Seq.eProgramFault : Nat := 0
def Seq.eTpmCe : Nat := 1
def Seq.eTpmUc : Nat := 2
def Seq.eRegCe : Nat := 3
def Seq.eRegUc : Nat := 4
def Seq.eUnitParity : Nat := 5

/-- The fields of the page type. -/
def Seq.fields : List Field :=
  []

/-! ## Page type 0x06, by R486 to R492 -/

/- Bits of BLK_ERR (e…) and BLK_ISR (i…). -/
def Cnt.iWrapped : Nat := 0

def Cnt.en : Field := ⟨0x40, 0, 1, .rw, 0, 1, 4⟩
def Cnt.clr : Field := ⟨0x40, 1, 1, .w1s, 0, 1, 4⟩
def Cnt.bwLog2 : Field := ⟨0x40, 2, 5, .rw, 20, 1, 4⟩
def Cnt.sel : Field := ⟨0x60, 0, 8, .rw, 0, 8, 4⟩
/-- The fields of the page type. -/
def Cnt.fields : List Field :=
  [Cnt.en, Cnt.clr, Cnt.bwLog2, Cnt.sel]

/-! ## Page type 0x07, by R501 -/

def Tag.en : Field := ⟨0x40, 0, 1, .rw, 0, 1, 4⟩
def Tag.tagN : Field := ⟨0x40, 1, 5, .rw, 12, 1, 4⟩
def Tag.next : Field := ⟨0x44, 0, 6, .ro, 0, 1, 4⟩
def Tag.wrapped : Field := ⟨0x44, 6, 1, .ro, 0, 1, 4⟩
def Tag.skip : Field := ⟨0x48, 0, 32, .ro, 0, 1, 4⟩
def Tag.entryWord : Field := ⟨0x800, 0, 32, .ro, 0, 512, 4⟩
/-- The fields of the page type. -/
def Tag.fields : List Field :=
  [Tag.en, Tag.tagN, Tag.next, Tag.wrapped, Tag.skip, Tag.entryWord]

/-! ## Page type 0x08, by R507 -/

def Site.role : Field := ⟨0x40, 0, 2, .pw, 0, 1, 4⟩
def Site.lcore : Field := ⟨0x40, 2, 12, .pw, 0, 1, 4⟩
def Site.alive : Field := ⟨0x40, 14, 1, .pw, 0, 1, 4⟩
def Site.pass : Field := ⟨0x40, 15, 1, .pw, 0, 1, 4⟩
def Site.testing : Field := ⟨0x40, 16, 1, .pw, 0, 1, 4⟩
def Site.retiredRt : Field := ⟨0x40, 17, 1, .pw, 0, 1, 4⟩
/-- The fields of the page type. -/
def Site.fields : List Field :=
  [Site.role, Site.lcore, Site.alive, Site.pass, Site.testing, Site.retiredRt]

/-! ## Page type 0x10, by R338 to R342 -/

/- Bits of BLK_ERR (e…) and BLK_ISR (i…). -/
def Spr.ePhaseFault : Nat := 0
def Spr.ePhaseLimit : Nat := 1
def Spr.eTrip : Nat := 2
def Spr.eImpWarn : Nat := 3
def Spr.eImpRetire : Nat := 4

def Spr.state : Field := ⟨0x40, 0, 3, .ro, 0, 1, 4⟩
def Spr.pgood : Field := ⟨0x40, 3, 1, .ro, 0, 1, 4⟩
def Spr.phaseOk : Field := ⟨0x40, 4, 12, .ro, 4095, 1, 4⟩
def Spr.healthy : Field := ⟨0x40, 16, 4, .ro, 12, 1, 4⟩
def Spr.forecast : Field := ⟨0x40, 20, 3, .ro, 0, 1, 4⟩
def Spr.ffActive : Field := ⟨0x40, 23, 1, .ro, 0, 1, 4⟩
def Spr.impWarn : Field := ⟨0x40, 24, 1, .ro, 0, 1, 4⟩
def Spr.impRetire : Field := ⟨0x40, 25, 1, .ro, 0, 1, 4⟩
def Spr.wakePhase : Field := ⟨0x40, 26, 2, .ro, 0, 1, 4⟩
def Spr.vcode : Field := ⟨0x44, 0, 7, .pw, 60, 1, 4⟩
def Spr.vtgt : Field := ⟨0x44, 7, 7, .ro, 0, 1, 4⟩
def Spr.limit : Field := ⟨0x48, 0, 7, .pw, 80, 1, 4⟩
def Spr.hwlim : Field := ⟨0x48, 8, 7, .ro, 80, 1, 4⟩
def Spr.efflim : Field := ⟨0x48, 16, 7, .ro, 80, 1, 4⟩
def Spr.iout : Field := ⟨0x4C, 0, 16, .ro, 0, 1, 4⟩
def Spr.vout : Field := ⟨0x4C, 16, 16, .ro, 0, 1, 4⟩
def Spr.rpath : Field := ⟨0x50, 0, 16, .ro, 0, 1, 4⟩
def Spr.ratio : Field := ⟨0x50, 16, 12, .ro, 256, 1, 4⟩
def Spr.rbase : Field := ⟨0x54, 0, 16, .ro, 0, 1, 4⟩
def Spr.phaseFltCnt : Field := ⟨0x58, 0, 32, .ro, 0, 1, 4⟩
def Spr.wakeCnt : Field := ⟨0x5C, 0, 32, .ro, 0, 1, 4⟩
/-- The fields of the page type. -/
def Spr.fields : List Field :=
  [Spr.state, Spr.pgood, Spr.phaseOk, Spr.healthy, Spr.forecast, Spr.ffActive, Spr.impWarn, Spr.impRetire] ++
  [Spr.wakePhase, Spr.vcode, Spr.vtgt, Spr.limit, Spr.hwlim, Spr.efflim, Spr.iout, Spr.vout] ++
  [Spr.rpath, Spr.ratio, Spr.rbase, Spr.phaseFltCnt, Spr.wakeCnt]

/-! ## Page type 0x11, by R363, R364, R366 -/

/- Bits of BLK_ERR (e…) and BLK_ISR (i…). -/
def Clk.eLockLost : Nat := 0
def Clk.eLockFail : Nat := 1
def Clk.eSwitchMiss : Nat := 2

def Clk.state : Field := ⟨0x40, 0, 2, .ro, 0, 1, 4⟩
def Clk.locked : Field := ⟨0x40, 2, 1, .ro, 0, 1, 4⟩
def Clk.step : Field := ⟨0x40, 3, 6, .ro, 0, 1, 4⟩
def Clk.pendingStep : Field := ⟨0x40, 9, 6, .ro, 0, 1, 4⟩
def Clk.stretching : Field := ⟨0x40, 15, 1, .ro, 0, 1, 4⟩
def Clk.det : Field := ⟨0x40, 16, 4, .ro, 0, 1, 4⟩
def Clk.droopMv : Field := ⟨0x44, 0, 4, .pw, 4, 1, 4⟩
def Clk.gateUs : Field := ⟨0x44, 4, 8, .pw, 2, 1, 4⟩
def Clk.standbyMs : Field := ⟨0x44, 12, 10, .pw, 1, 1, 4⟩
def Clk.trim : Field := ⟨0x48, 0, 4, .ro, 0, 1, 4⟩
def Clk.droopCnt : Field := ⟨0x4C, 0, 32, .ro, 0, 1, 4⟩
def Clk.stretchCnt : Field := ⟨0x50, 0, 32, .ro, 0, 1, 4⟩
def Clk.wakeCnt : Field := ⟨0x54, 0, 32, .ro, 0, 1, 4⟩
def Clk.vtab : Field := ⟨0x80, 0, 32, .ro, 0, 6, 4⟩
/-- The fields of the page type. -/
def Clk.fields : List Field :=
  [Clk.state, Clk.locked, Clk.step, Clk.pendingStep, Clk.stretching, Clk.det, Clk.droopMv, Clk.gateUs] ++
  [Clk.standbyMs, Clk.trim, Clk.droopCnt, Clk.stretchCnt, Clk.wakeCnt, Clk.vtab]

/-! ## Page type 0x20, by R518 -/

/-- The fields of the page type. -/
def Fe.fields : List Field :=
  []

/-! ## Page type 0x21, by R234 to R236, R239 (also types 0x25, 0x27, 0x29) -/

/- Bits of BLK_ERR (e…) and BLK_ISR (i…). -/
def Que.eDescUc : Nat := 0
def Que.eCqWriteErr : Nat := 1
def Que.eParity : Nat := 2

def Que.hedge : Field := ⟨0x40, 0, 5, .rw, 0, 1, 4⟩
def Que.en : Field := ⟨0x40, 8, 1, .rw, 0, 1, 4⟩
def Que.stopOnErr : Field := ⟨0x40, 9, 1, .rw, 1, 1, 4⟩
def Que.eventAll : Field := ⟨0x40, 10, 1, .rw, 0, 1, 4⟩
def Que.ringLog2 : Field := ⟨0x40, 12, 5, .rw, 4, 1, 4⟩
def Que.cqLog2 : Field := ⟨0x40, 17, 5, .rw, 4, 1, 4⟩
def Que.baseLo : Field := ⟨0x48, 0, 32, .rw, 0, 1, 4⟩
def Que.baseHi : Field := ⟨0x4C, 0, 32, .rw, 0, 1, 4⟩
def Que.cqBaseLo : Field := ⟨0x50, 0, 32, .rw, 0, 1, 4⟩
def Que.cqBaseHi : Field := ⟨0x54, 0, 32, .rw, 0, 1, 4⟩
def Que.head : Field := ⟨0x5C, 0, 32, .ro, 0, 1, 4⟩
def Que.cqTail : Field := ⟨0x60, 0, 32, .ro, 0, 1, 4⟩
def Que.cqHead : Field := ⟨0x64, 0, 32, .rw, 0, 1, 4⟩
def Que.reset : Field := ⟨0x68, 0, 1, .w1s, 0, 1, 4⟩
def Que.resume : Field := ⟨0x68, 1, 1, .w1s, 0, 1, 4⟩
/-- The fields of the page type. -/
def Que.fields : List Field :=
  [Que.hedge, Que.en, Que.stopOnErr, Que.eventAll, Que.ringLog2, Que.cqLog2, Que.baseLo, Que.baseHi] ++
  [Que.cqBaseLo, Que.cqBaseHi, Que.head, Que.cqTail, Que.cqHead, Que.reset, Que.resume]

/-! ## Page type 0x22, by R238 -/

def Seg.count : Field := ⟨0x40, 0, 10, .ro, 744, 1, 4⟩
def Seg.owner0 : Field := ⟨0x100, 0, 6, .rw, 0, 186, 4⟩
def Seg.owner1 : Field := ⟨0x100, 8, 6, .rw, 0, 186, 4⟩
def Seg.owner2 : Field := ⟨0x100, 16, 6, .rw, 0, 186, 4⟩
def Seg.owner3 : Field := ⟨0x100, 24, 6, .rw, 0, 186, 4⟩
def Seg.scrubbing0 : Field := ⟨0x100, 6, 1, .ro, 0, 186, 4⟩
def Seg.scrubbing1 : Field := ⟨0x100, 14, 1, .ro, 0, 186, 4⟩
def Seg.scrubbing2 : Field := ⟨0x100, 22, 1, .ro, 0, 186, 4⟩
def Seg.scrubbing3 : Field := ⟨0x100, 30, 1, .ro, 0, 186, 4⟩
/-- The fields of the page type. -/
def Seg.fields : List Field :=
  [Seg.count, Seg.owner0, Seg.owner1, Seg.owner2, Seg.owner3, Seg.scrubbing0, Seg.scrubbing1, Seg.scrubbing2] ++
  [Seg.scrubbing3]

/-! ## Page type 0x23, by R211, R234 -/

/-- The fields of the page type. -/
def Evt.fields : List Field :=
  []

/-! ## Page type 0x24, by R518 -/

/-- The fields of the page type. -/
def Te.fields : List Field :=
  []

/-! ## Page type 0x26, by R318 to R321 -/

/- Bits of BLK_ERR (e…) and BLK_ISR (i…). -/
def Ne.eDigestMismatch : Nat := 0
def Ne.eSuspect : Nat := 1
def Ne.eCfgErr : Nat := 2

def Ne.timeoutMs : Field := ⟨0x40, 0, 16, .pw, 100, 1, 4⟩
def Ne.suspComm : Field := ⟨0x44, 0, 6, .ro, 0, 1, 4⟩
def Ne.suspRank : Field := ⟨0x44, 6, 11, .ro, 0, 1, 4⟩
def Ne.suspCheck : Field := ⟨0x44, 17, 1, .ro, 0, 1, 4⟩
def Ne.suspValid : Field := ⟨0x44, 18, 1, .ro, 0, 1, 4⟩
def Ne.segTx : Field := ⟨0x48, 0, 32, .ro, 0, 1, 4⟩
def Ne.segRx : Field := ⟨0x4C, 0, 32, .ro, 0, 1, 4⟩
def Ne.crcMm : Field := ⟨0x50, 0, 32, .ro, 0, 1, 4⟩
def Ne.sumMm : Field := ⟨0x54, 0, 32, .ro, 0, 1, 4⟩
def Ne.sumSkip : Field := ⟨0x58, 0, 32, .ro, 0, 1, 4⟩
def Ne.resendCnt : Field := ⟨0x5C, 0, 32, .ro, 0, 1, 4⟩
def Ne.unmatched : Field := ⟨0x60, 0, 32, .ro, 0, 1, 4⟩
def Ne.valid : Field := ⟨0x100, 0, 1, .rw, 0, 64, 32⟩
def Ne.hedge : Field := ⟨0x100, 1, 5, .rw, 0, 64, 32⟩
def Ne.queue : Field := ⟨0x100, 6, 5, .rw, 0, 64, 32⟩
def Ne.broken : Field := ⟨0x100, 11, 1, .ro, 0, 64, 32⟩
def Ne.size : Field := ⟨0x100, 12, 12, .rw, 1, 64, 32⟩
def Ne.rank : Field := ⟨0x104, 0, 11, .rw, 0, 64, 32⟩
def Ne.workMib : Field := ⟨0x104, 12, 20, .rw, 0, 64, 32⟩
def Ne.keyLo : Field := ⟨0x108, 0, 32, .rw, 0, 64, 32⟩
def Ne.keyHi : Field := ⟨0x10C, 0, 32, .rw, 0, 64, 32⟩
def Ne.rankTabLo : Field := ⟨0x110, 6, 26, .rw, 0, 64, 32⟩
def Ne.rankTabHi : Field := ⟨0x114, 0, 32, .rw, 0, 64, 32⟩
def Ne.workLo : Field := ⟨0x118, 6, 26, .rw, 0, 64, 32⟩
def Ne.workHi : Field := ⟨0x11C, 0, 32, .rw, 0, 64, 32⟩
/-- The fields of the page type. -/
def Ne.fields : List Field :=
  [Ne.timeoutMs, Ne.suspComm, Ne.suspRank, Ne.suspCheck, Ne.suspValid, Ne.segTx, Ne.segRx, Ne.crcMm] ++
  [Ne.sumMm, Ne.sumSkip, Ne.resendCnt, Ne.unmatched, Ne.valid, Ne.hedge, Ne.queue, Ne.broken] ++
  [Ne.size, Ne.rank, Ne.workMib, Ne.keyLo, Ne.keyHi, Ne.rankTabLo, Ne.rankTabHi, Ne.workLo] ++
  [Ne.workHi]

/-! ## Page type 0x28, by R237 -/

def Hdg.replayMax : Field := ⟨0x48, 0, 3, .rw, 2, 1, 4⟩
def Hdg.evtAdmit : Field := ⟨0x4C, 0, 32, .rw, 0, 1, 4⟩
def Hdg.replayCnt : Field := ⟨0x50, 0, 32, .ro, 0, 1, 4⟩
def Hdg.evtDeniedCnt : Field := ⟨0x54, 0, 32, .ro, 0, 1, 4⟩
/-- The fields of the page type. -/
def Hdg.fields : List Field :=
  [Hdg.replayMax, Hdg.evtAdmit, Hdg.replayCnt, Hdg.evtDeniedCnt]

/-! ## Page type 0x30, by R285 to R287, R291 -/

/- Bits of BLK_ERR (e…) and BLK_ISR (i…). -/
def Eth.eLinkDown : Nat := 0
def Eth.eFecDegrade : Nat := 1
def Eth.eMacsecDrop : Nat := 2
def Eth.ePathParity : Nat := 3

def Eth.mode : Field := ⟨0x40, 0, 2, .pw, 0, 1, 4⟩
def Eth.anEn : Field := ⟨0x40, 2, 1, .pw, 1, 1, 4⟩
def Eth.macsecEn : Field := ⟨0x40, 3, 1, .pw, 0, 1, 4⟩
def Eth.pfcEn : Field := ⟨0x40, 4, 1, .pw, 1, 1, 4⟩
def Eth.pfcPrio : Field := ⟨0x40, 5, 8, .pw, 24, 1, 4⟩
def Eth.jumbo : Field := ⟨0x40, 13, 1, .pw, 1, 1, 4⟩
def Eth.up : Field := ⟨0x44, 0, 2, .ro, 0, 1, 4⟩
def Eth.localFault : Field := ⟨0x44, 2, 1, .ro, 0, 1, 4⟩
def Eth.remoteFault : Field := ⟨0x44, 3, 1, .ro, 0, 1, 4⟩
def Eth.fecDegrade : Field := ⟨0x44, 4, 1, .ro, 0, 1, 4⟩
def Eth.anDone : Field := ⟨0x44, 5, 1, .ro, 0, 1, 4⟩
def Eth.macsecActive : Field := ⟨0x44, 6, 1, .ro, 0, 1, 4⟩
def Eth.rekey : Field := ⟨0x44, 7, 1, .ro, 0, 1, 4⟩
def Eth.fcsErrCnt : Field := ⟨0x48, 0, 32, .ro, 0, 1, 4⟩
def Eth.fecCeCnt : Field := ⟨0x4C, 0, 32, .ro, 0, 1, 4⟩
def Eth.fecUcCnt : Field := ⟨0x50, 0, 32, .ro, 0, 1, 4⟩
def Eth.macsecDropCnt : Field := ⟨0x54, 0, 32, .ro, 0, 1, 4⟩
def Eth.flapCnt : Field := ⟨0x58, 0, 32, .ro, 0, 1, 4⟩
/-- The fields of the page type. -/
def Eth.fields : List Field :=
  [Eth.mode, Eth.anEn, Eth.macsecEn, Eth.pfcEn, Eth.pfcPrio, Eth.jumbo, Eth.up, Eth.localFault] ++
  [Eth.remoteFault, Eth.fecDegrade, Eth.anDone, Eth.macsecActive, Eth.rekey, Eth.fcsErrCnt, Eth.fecCeCnt, Eth.fecUcCnt] ++
  [Eth.macsecDropCnt, Eth.flapCnt]

/-! ## Page type 0x31, by R285, R288 -/

def Ifc.dataVid : Field := ⟨0x40, 0, 12, .pw, 1, 1, 4⟩
def Ifc.mgmtVid : Field := ⟨0x40, 12, 12, .pw, 2, 1, 4⟩
def Ifc.ctrlPcp : Field := ⟨0x44, 0, 3, .pw, 6, 1, 4⟩
def Ifc.bulkPcp : Field := ⟨0x44, 3, 3, .pw, 3, 1, 4⟩
def Ifc.collPcp : Field := ⟨0x44, 6, 3, .pw, 4, 1, 4⟩
def Ifc.mgmtPcp : Field := ⟨0x44, 9, 3, .pw, 7, 1, 4⟩
def Ifc.macLo : Field := ⟨0x48, 0, 32, .pw, 0, 1, 4⟩
def Ifc.macHi : Field := ⟨0x4C, 0, 16, .pw, 0, 1, 4⟩
def Ifc.nhMacLo : Field := ⟨0x50, 0, 32, .pw, 0, 1, 4⟩
def Ifc.nhMacHi : Field := ⟨0x54, 0, 16, .pw, 0, 1, 4⟩
def Ifc.dataAddr : Field := ⟨0x60, 0, 32, .pw, 0, 4, 4⟩
def Ifc.mgmtAddr : Field := ⟨0x70, 0, 32, .pw, 0, 4, 4⟩
def Ifc.rxDropCnt : Field := ⟨0x80, 0, 32, .ro, 0, 1, 4⟩
/-- The fields of the page type. -/
def Ifc.fields : List Field :=
  [Ifc.dataVid, Ifc.mgmtVid, Ifc.ctrlPcp, Ifc.bulkPcp, Ifc.collPcp, Ifc.mgmtPcp, Ifc.macLo, Ifc.macHi] ++
  [Ifc.nhMacLo, Ifc.nhMacHi, Ifc.dataAddr, Ifc.mgmtAddr, Ifc.rxDropCnt]

/-! ## Page type 0x32, by R272, R285 -/

/-- The fields of the page type. -/
def Mac.fields : List Field :=
  []

/-! ## Page type 0x33, by R285, R289 -/

def Ras.udpPort : Field := ⟨0x40, 0, 16, .pw, 47311, 1, 4⟩
def Ras.keepaliveMs : Field := ⟨0x44, 0, 8, .pw, 50, 1, 4⟩
def Ras.deadMs : Field := ⟨0x44, 8, 16, .pw, 200, 1, 4⟩
def Ras.nconn : Field := ⟨0x48, 0, 13, .ro, 0, 1, 4⟩
def Ras.badTypeCnt : Field := ⟨0x4C, 0, 32, .ro, 0, 1, 4⟩
def Ras.dropCnt : Field := ⟨0x50, 0, 32, .ro, 0, 1, 4⟩
def Ras.retxCnt : Field := ⟨0x54, 0, 32, .ro, 0, 1, 4⟩
def Ras.closeCnt : Field := ⟨0x58, 0, 32, .ro, 0, 1, 4⟩
def Ras.admitAddr0 : Field := ⟨0x100, 0, 32, .pw, 0, 16, 32⟩
def Ras.admitAddr1 : Field := ⟨0x104, 0, 32, .pw, 0, 16, 32⟩
def Ras.admitAddr2 : Field := ⟨0x108, 0, 32, .pw, 0, 16, 32⟩
def Ras.admitAddr3 : Field := ⟨0x10C, 0, 32, .pw, 0, 16, 32⟩
def Ras.admitPfxLen : Field := ⟨0x110, 0, 8, .pw, 0, 16, 32⟩
def Ras.admitValid : Field := ⟨0x110, 8, 1, .pw, 0, 16, 32⟩
/-- The fields of the page type. -/
def Ras.fields : List Field :=
  [Ras.udpPort, Ras.keepaliveMs, Ras.deadMs, Ras.nconn, Ras.badTypeCnt, Ras.dropCnt, Ras.retxCnt, Ras.closeCnt] ++
  [Ras.admitAddr0, Ras.admitAddr1, Ras.admitAddr2, Ras.admitAddr3, Ras.admitPfxLen, Ras.admitValid]

/-! ## Page type 0x34, by R285, R290 -/

/-- The fields of the page type. -/
def Con.fields : List Field :=
  []

/-! ## Page type 0x38, by R261 to R265 -/

/- Bits of BLK_ERR (e…) and BLK_ISR (i…). -/
def Mc.eDataCe : Nat := 0
def Mc.eDataUc : Nat := 1
def Mc.ePatrolUc : Nat := 2
def Mc.eLinkUc : Nat := 3
def Mc.eTagMismatch : Nat := 4
def Mc.eTrainFail : Nat := 5
def Mc.eFailed : Nat := 6

def Mc.state : Field := ⟨0x40, 0, 3, .ro, 0, 1, 4⟩
def Mc.temp : Field := ⟨0x40, 3, 8, .ro, 0, 1, 4⟩
def Mc.derate : Field := ⟨0x40, 11, 1, .ro, 0, 1, 4⟩
def Mc.sref : Field := ⟨0x40, 12, 1, .ro, 0, 1, 4⟩
def Mc.due : Field := ⟨0x40, 13, 1, .ro, 0, 1, 4⟩
def Mc.fails : Field := ⟨0x40, 14, 2, .ro, 0, 1, 4⟩
def Mc.tempHigh : Field := ⟨0x40, 16, 1, .ro, 0, 1, 4⟩
def Mc.retrainMs : Field := ⟨0x44, 0, 8, .pw, 100, 1, 4⟩
def Mc.tempDelta : Field := ⟨0x44, 8, 4, .pw, 5, 1, 4⟩
def Mc.patrolEn : Field := ⟨0x44, 12, 1, .pw, 1, 1, 4⟩
def Mc.linkCeLimit : Field := ⟨0x44, 16, 8, .pw, 64, 1, 4⟩
def Mc.ceCnt : Field := ⟨0x48, 0, 32, .ro, 0, 1, 4⟩
def Mc.ucCnt : Field := ⟨0x4C, 0, 32, .ro, 0, 1, 4⟩
def Mc.linkCeCnt : Field := ⟨0x50, 0, 32, .ro, 0, 1, 4⟩
def Mc.retrainCnt : Field := ⟨0x54, 0, 32, .ro, 0, 1, 4⟩
def Mc.hold : Field := ⟨0x58, 0, 16, .rc, 0, 1, 4⟩
def Mc.failStage : Field := ⟨0x5C, 0, 3, .ro, 0, 1, 4⟩
def Mc.attempts : Field := ⟨0x5C, 3, 2, .ro, 0, 1, 4⟩
def Mc.inService : Field := ⟨0x5C, 5, 1, .ro, 0, 1, 4⟩
def Mc.patrolPos : Field := ⟨0x60, 0, 26, .ro, 0, 1, 4⟩
/-- The fields of the page type. -/
def Mc.fields : List Field :=
  [Mc.state, Mc.temp, Mc.derate, Mc.sref, Mc.due, Mc.fails, Mc.tempHigh, Mc.retrainMs] ++
  [Mc.tempDelta, Mc.patrolEn, Mc.linkCeLimit, Mc.ceCnt, Mc.ucCnt, Mc.linkCeCnt, Mc.retrainCnt, Mc.hold] ++
  [Mc.failStage, Mc.attempts, Mc.inService, Mc.patrolPos]

/-! ## Page type 0x39, by R261 -/

def Msm.nch : Field := ⟨0x40, 0, 8, .ro, 0, 1, 4⟩
def Msm.active : Field := ⟨0x44, 0, 32, .ro, 0, 6, 4⟩
/-- The fields of the page type. -/
def Msm.fields : List Field :=
  [Msm.nch, Msm.active]

/-! ## Page type 0x3C, by R497 -/

def Col.en : Field := ⟨0x40, 0, 1, .rw, 0, 1, 4⟩
def Col.period : Field := ⟨0x40, 1, 16, .rw, 100, 1, 4⟩
def Col.sweep : Field := ⟨0x44, 0, 32, .ro, 0, 1, 4⟩
def Col.devHedge : Field := ⟨0x48, 0, 5, .rw, 0, 1, 4⟩
def Col.devClaim : Field := ⟨0x48, 5, 1, .w1s, 0, 1, 4⟩
def Col.devHeld : Field := ⟨0x48, 6, 1, .ro, 0, 1, 4⟩
def Col.baseLo : Field := ⟨0x100, 0, 32, .rw, 0, 33, 32⟩
def Col.baseHi : Field := ⟨0x104, 0, 32, .rw, 0, 33, 32⟩
def Col.strEn : Field := ⟨0x108, 0, 1, .rw, 0, 33, 32⟩
def Col.log2 : Field := ⟨0x108, 1, 5, .rw, 6, 33, 32⟩
def Col.tail : Field := ⟨0x10C, 0, 32, .ro, 0, 33, 32⟩
def Col.head : Field := ⟨0x110, 0, 32, .rw, 0, 33, 32⟩
def Col.dropCnt : Field := ⟨0x114, 0, 32, .ro, 0, 33, 32⟩
/-- The fields of the page type. -/
def Col.fields : List Field :=
  [Col.en, Col.period, Col.sweep, Col.devHedge, Col.devClaim, Col.devHeld, Col.baseLo, Col.baseHi] ++
  [Col.strEn, Col.log2, Col.tail, Col.head, Col.dropCnt]

/-! ## Page type 0x40, by R479, R480 -/

def Prv.state : Field := ⟨0x40, 0, 2, .pw, 0, 1, 4⟩
def Prv.debug : Field := ⟨0x40, 2, 1, .pw, 0, 1, 4⟩
def Prv.debugPending : Field := ⟨0x40, 3, 1, .pw, 0, 1, 4⟩
def Prv.fuseCnt : Field := ⟨0x44, 0, 7, .pw, 0, 1, 4⟩
def Prv.imageSvn : Field := ⟨0x44, 8, 7, .pw, 0, 1, 4⟩
def Prv.slot : Field := ⟨0x44, 16, 1, .pw, 0, 1, 4⟩
def Prv.trial : Field := ⟨0x44, 17, 1, .pw, 0, 1, 4⟩
def Prv.aValid : Field := ⟨0x44, 18, 1, .pw, 0, 1, 4⟩
def Prv.bValid : Field := ⟨0x44, 19, 1, .pw, 0, 1, 4⟩
def Prv.capDefault : Field := ⟨0x48, 0, 16, .pw, 0, 1, 4⟩
def Prv.wdogCnt : Field := ⟨0x4C, 0, 32, .ro, 0, 1, 4⟩
/-- The fields of the page type. -/
def Prv.fields : List Field :=
  [Prv.state, Prv.debug, Prv.debugPending, Prv.fuseCnt, Prv.imageSvn, Prv.slot, Prv.trial, Prv.aValid] ++
  [Prv.bValid, Prv.capDefault, Prv.wdogCnt]

/-! ## Page type 0x41, by R479 to R481 -/

/- Bits of BLK_ERR (e…) and BLK_ISR (i…). -/
def Sec.eBadSig : Nat := 0
def Sec.eBadHmac : Nat := 1
def Sec.eRollback : Nat := 2
def Sec.eImageFallback : Nat := 3
def Sec.eHssLow : Nat := 4

def Sec.sreqLo : Field := ⟨0x40, 0, 32, .pw, 0, 1, 4⟩
def Sec.sreqHi : Field := ⟨0x44, 0, 32, .pw, 0, 1, 4⟩
def Sec.hssNext : Field := ⟨0x48, 0, 21, .pw, 0, 1, 4⟩
def Sec.hssExhausted : Field := ⟨0x48, 21, 1, .pw, 0, 1, 4⟩
def Sec.hssLowBit : Field := ⟨0x48, 22, 1, .pw, 0, 1, 4⟩
def Sec.sessMb : Field := ⟨0x4C, 0, 4, .pw, 0, 1, 4⟩
def Sec.sessMgmt : Field := ⟨0x4C, 4, 8, .pw, 0, 1, 4⟩
def Sec.steerDropCnt : Field := ⟨0x50, 0, 32, .ro, 0, 1, 4⟩
def Sec.meas : Field := ⟨0x100, 0, 32, .ro, 0, 48, 4⟩
def Sec.auth : Field := ⟨0x200, 0, 32, .ro, 0, 12, 4⟩
/-- The fields of the page type. -/
def Sec.fields : List Field :=
  [Sec.sreqLo, Sec.sreqHi, Sec.hssNext, Sec.hssExhausted, Sec.hssLowBit, Sec.sessMb, Sec.sessMgmt, Sec.steerDropCnt] ++
  [Sec.meas, Sec.auth]

/-! ## Page type 0x42, by R343 to R345 -/

/- Bits of BLK_ERR (e…) and BLK_ISR (i…). -/
def Inp.eBarLost : Nat := 0
def Inp.eBarReversed : Nat := 1
def Inp.eBarOver : Nat := 2
def Inp.eCellFault : Nat := 3
def Inp.eCellsLow : Nat := 4
def Inp.eRailLow : Nat := 5
def Inp.ePowerFail : Nat := 6

def Inp.bar0State : Field := ⟨0x40, 0, 3, .ro, 4, 1, 4⟩
def Inp.bar0On : Field := ⟨0x40, 3, 1, .ro, 0, 1, 4⟩
def Inp.bar0Volts : Field := ⟨0x40, 4, 10, .ro, 0, 1, 4⟩
def Inp.bar1State : Field := ⟨0x40, 16, 3, .ro, 4, 1, 4⟩
def Inp.bar1On : Field := ⟨0x40, 19, 1, .ro, 0, 1, 4⟩
def Inp.bar1Volts : Field := ⟨0x40, 20, 10, .ro, 0, 1, 4⟩
def Inp.good : Field := ⟨0x44, 0, 7, .ro, 0, 1, 4⟩
def Inp.railLowBit : Field := ⟨0x44, 7, 1, .ro, 0, 1, 4⟩
def Inp.bulkEn : Field := ⟨0x44, 8, 1, .ro, 0, 1, 4⟩
def Inp.bulkAlert : Field := ⟨0x44, 9, 1, .ro, 0, 1, 4⟩
def Inp.cellOk : Field := ⟨0x48, 0, 32, .ro, 0, 3, 4⟩
def Inp.inP : Field := ⟨0x54, 0, 16, .ro, 0, 1, 4⟩
def Inp.rail : Field := ⟨0x58, 0, 12, .ro, 0, 1, 4⟩
/-- The fields of the page type. -/
def Inp.fields : List Field :=
  [Inp.bar0State, Inp.bar0On, Inp.bar0Volts, Inp.bar1State, Inp.bar1On, Inp.bar1Volts, Inp.good, Inp.railLowBit] ++
  [Inp.bulkEn, Inp.bulkAlert, Inp.cellOk, Inp.inP, Inp.rail]

/-! ## Page type 0x43, by R365 -/

def Ref.source : Field := ⟨0x40, 0, 2, .ro, 0, 1, 4⟩
def Ref.osc0Lost : Field := ⟨0x40, 2, 1, .ro, 0, 1, 4⟩
def Ref.osc1Lost : Field := ⟨0x40, 3, 1, .ro, 0, 1, 4⟩
def Ref.target : Field := ⟨0x44, 0, 6, .pw, 10, 1, 4⟩
def Ref.armCount : Field := ⟨0x44, 6, 10, .pw, 64, 1, 4⟩
def Ref.go : Field := ⟨0x44, 16, 1, .pw, 0, 1, 4⟩
def Ref.step : Field := ⟨0x48, 0, 6, .ro, 10, 1, 4⟩
def Ref.armed : Field := ⟨0x48, 6, 1, .ro, 0, 1, 4⟩
def Ref.refused : Field := ⟨0x48, 7, 1, .ro, 0, 1, 4⟩
def Ref.forced : Field := ⟨0x48, 8, 1, .ro, 0, 1, 4⟩
def Ref.fuseMax : Field := ⟨0x48, 9, 6, .ro, 0, 1, 4⟩
def Ref.refuseCnt : Field := ⟨0x4C, 0, 32, .ro, 0, 1, 4⟩
/-- The fields of the page type. -/
def Ref.fields : List Field :=
  [Ref.source, Ref.osc0Lost, Ref.osc1Lost, Ref.target, Ref.armCount, Ref.go, Ref.step, Ref.armed] ++
  [Ref.refused, Ref.forced, Ref.fuseMax, Ref.refuseCnt]

/-! ## Page type 0x44, by R392 to R394, R396 -/

/- Bits of BLK_ERR (e…) and BLK_ISR (i…). -/
def Pct.eMismatch : Nat := 0
def Pct.eDiverged : Nat := 1
def Pct.eRecalFail : Nat := 2
def Pct.eSensorBad : Nat := 3
def Pct.eThermHold : Nat := 4
def Pct.eThermtrip : Nat := 5
def Pct.eMereHot : Nat := 6
def Pct.eLeaseExp : Nat := 7
def Pct.eSteerRefuse : Nat := 8

def Pct.cap : Field := ⟨0x40, 0, 16, .pw, 15500, 1, 4⟩
def Pct.capEff : Field := ⟨0x40, 16, 16, .pw, 15500, 1, 4⟩
def Pct.oneBar : Field := ⟨0x44, 0, 1, .ro, 0, 1, 4⟩
def Pct.cellsLow : Field := ⟨0x44, 1, 1, .ro, 0, 1, 4⟩
def Pct.forced : Field := ⟨0x44, 2, 1, .ro, 0, 1, 4⟩
def Pct.thermReduce : Field := ⟨0x44, 3, 1, .pw, 0, 1, 4⟩
def Pct.thermHoldAny : Field := ⟨0x44, 4, 1, .ro, 0, 1, 4⟩
def Pct.mismatchBit : Field := ⟨0x44, 5, 1, .pw, 0, 1, 4⟩
def Pct.mereHotBit : Field := ⟨0x44, 6, 1, .pw, 0, 1, 4⟩
def Pct.steerActive : Field := ⟨0x44, 7, 1, .pw, 0, 1, 4⟩
def Pct.divergedCnt : Field := ⟨0x44, 8, 9, .pw, 0, 1, 4⟩
def Pct.pIn : Field := ⟨0x48, 0, 16, .pw, 0, 1, 4⟩
def Pct.pPer : Field := ⟨0x48, 16, 16, .pw, 0, 1, 4⟩
def Pct.pPred : Field := ⟨0x4C, 0, 16, .pw, 0, 1, 4⟩
def Pct.pSpr : Field := ⟨0x4C, 16, 16, .pw, 0, 1, 4⟩
def Pct.k : Field := ⟨0x50, 0, 11, .pw, 1024, 1, 4⟩
def Pct.refitRejCnt : Field := ⟨0x54, 0, 32, .ro, 0, 1, 4⟩
def Pct.grantCnt : Field := ⟨0x58, 0, 32, .ro, 0, 1, 4⟩
def Pct.leaseExpCnt : Field := ⟨0x5C, 0, 32, .ro, 0, 1, 4⟩
def Pct.hbBase : Field := ⟨0x100, 0, 16, .pw, 0, 32, 8⟩
def Pct.hbBudget : Field := ⟨0x100, 16, 16, .pw, 0, 32, 8⟩
def Pct.hbNet : Field := ⟨0x104, 0, 16, .pw, 0, 32, 8⟩
def Pct.hbSgroup : Field := ⟨0x104, 16, 8, .pw, 0, 32, 8⟩
def Pct.hbSteered : Field := ⟨0x104, 24, 1, .pw, 0, 32, 8⟩
def Pct.hbNoGroup : Field := ⟨0x104, 25, 1, .pw, 0, 32, 8⟩
def Pct.hbEligible : Field := ⟨0x104, 26, 1, .pw, 0, 32, 8⟩
/-- The fields of the page type. -/
def Pct.fields : List Field :=
  [Pct.cap, Pct.capEff, Pct.oneBar, Pct.cellsLow, Pct.forced, Pct.thermReduce, Pct.thermHoldAny, Pct.mismatchBit] ++
  [Pct.mereHotBit, Pct.steerActive, Pct.divergedCnt, Pct.pIn, Pct.pPer, Pct.pPred, Pct.pSpr, Pct.k] ++
  [Pct.refitRejCnt, Pct.grantCnt, Pct.leaseExpCnt, Pct.hbBase, Pct.hbBudget, Pct.hbNet, Pct.hbSgroup, Pct.hbSteered] ++
  [Pct.hbNoGroup, Pct.hbEligible]

/-! ## Page type 0x45, by R392, R395 -/

def Cpc.issueL : Field := ⟨0x100, 0, 5, .ro, 16, 128, 16⟩
def Cpc.ceil : Field := ⟨0x100, 5, 5, .ro, 16, 128, 16⟩
def Cpc.tf : Field := ⟨0x100, 10, 5, .pw, 16, 128, 16⟩
def Cpc.hold : Field := ⟨0x100, 15, 1, .ro, 0, 128, 16⟩
def Cpc.diverged : Field := ⟨0x100, 16, 1, .pw, 0, 128, 16⟩
def Cpc.senseBad : Field := ⟨0x100, 17, 1, .pw, 0, 128, 16⟩
def Cpc.droopLong : Field := ⟨0x100, 18, 1, .ro, 0, 128, 16⟩
def Cpc.tC : Field := ⟨0x104, 0, 10, .ro, 0, 128, 16⟩
def Cpc.sensorOk : Field := ⟨0x104, 10, 4, .ro, 15, 128, 16⟩
def Cpc.pEst : Field := ⟨0x108, 0, 16, .ro, 0, 128, 16⟩
def Cpc.pMeas : Field := ⟨0x108, 16, 16, .ro, 0, 128, 16⟩
def Cpc.limBase : Field := ⟨0x10C, 0, 7, .pw, 80, 128, 16⟩
/-- The fields of the page type. -/
def Cpc.fields : List Field :=
  [Cpc.issueL, Cpc.ceil, Cpc.tf, Cpc.hold, Cpc.diverged, Cpc.senseBad, Cpc.droopLong, Cpc.tC] ++
  [Cpc.sensorOk, Cpc.pEst, Cpc.pMeas, Cpc.limBase]

/-! ## Page type 0x46, by R424 to R427 -/

/- Bits of BLK_ERR (e…) and BLK_ISR (i…). -/
def Bup.eHalt : Nat := 0
def Bup.eLogFull : Nat := 1
def Bup.eSpareExhausted : Nat := 2
def Bup.eRollback : Nat := 3

def Bup.stage : Field := ⟨0x40, 0, 4, .pw, 0, 1, 4⟩
def Bup.state : Field := ⟨0x40, 4, 3, .pw, 0, 1, 4⟩
def Bup.repeatBit : Field := ⟨0x40, 7, 1, .pw, 0, 1, 4⟩
def Bup.code : Field := ⟨0x40, 16, 16, .pw, 0, 1, 4⟩
def Bup.next : Field := ⟨0x44, 0, 32, .pw, 0, 1, 4⟩
def Bup.mask : Field := ⟨0x48, 0, 32, .pw, 0, 1, 4⟩
def Bup.cores : Field := ⟨0x4C, 0, 13, .pw, 0, 1, 4⟩
def Bup.plots : Field := ⟨0x4C, 16, 6, .pw, 0, 1, 4⟩
def Bup.logEntries : Field := ⟨0x50, 0, 13, .pw, 0, 1, 4⟩
def Bup.logFull : Field := ⟨0x50, 13, 1, .pw, 0, 1, 4⟩
def Bup.shifting : Field := ⟨0x54, 0, 1, .ro, 0, 1, 4⟩
def Bup.planned : Field := ⟨0x54, 1, 1, .ro, 0, 1, 4⟩
def Bup.shiftHedge : Field := ⟨0x54, 2, 5, .ro, 0, 1, 4⟩
def Bup.rollbackBit : Field := ⟨0x54, 7, 1, .ro, 0, 1, 4⟩
def Bup.pendingCnt : Field := ⟨0x54, 8, 8, .ro, 0, 1, 4⟩
def Bup.retireCnt : Field := ⟨0x58, 0, 32, .ro, 0, 1, 4⟩
def Bup.mapRow : Field := ⟨0x100, 0, 32, .ro, 2576980377, 64, 4⟩
/-- The fields of the page type. -/
def Bup.fields : List Field :=
  [Bup.stage, Bup.state, Bup.repeatBit, Bup.code, Bup.next, Bup.mask, Bup.cores, Bup.plots] ++
  [Bup.logEntries, Bup.logFull, Bup.shifting, Bup.planned, Bup.shiftHedge, Bup.rollbackBit, Bup.pendingCnt, Bup.retireCnt] ++
  [Bup.mapRow]

/-! ## Page type 0x47, by R399, R424 -/

def Brg.recordWord : Field := ⟨0x800, 0, 32, .pw, 0, 512, 4⟩
/-- The fields of the page type. -/
def Brg.fields : List Field :=
  [Brg.recordWord]

/-! ## Page type 0x48, by R449, R450, R452 -/

/- Bits of BLK_ERR (e…) and BLK_ISR (i…). -/
def Err.eFatal : Nat := 0
def Err.eJrnlOverflow : Nat := 1
def Err.eWdog : Nat := 2
def Err.eFtOutvote : Nat := 3

def Err.fatalBit : Field := ⟨0x40, 0, 1, .pw, 0, 1, 4⟩
def Err.fatalCause : Field := ⟨0x40, 8, 8, .pw, 0, 1, 4⟩
def Err.ceCnt : Field := ⟨0x44, 0, 32, .ro, 0, 1, 4⟩
def Err.ucCnt : Field := ⟨0x48, 0, 32, .ro, 0, 1, 4⟩
def Err.fatalCnt : Field := ⟨0x4C, 0, 32, .ro, 0, 1, 4⟩
def Err.rstCause : Field := ⟨0x50, 0, 4, .pw, 0, 1, 4⟩
def Err.interrupted : Field := ⟨0x50, 4, 1, .pw, 0, 1, 4⟩
def Err.jrnlSeq : Field := ⟨0x54, 0, 32, .pw, 0, 1, 4⟩
def Err.ceRetire : Field := ⟨0x58, 0, 16, .pw, 10000, 1, 4⟩
def Err.ucDay : Field := ⟨0x58, 16, 4, .pw, 3, 1, 4⟩
/-- The fields of the page type. -/
def Err.fields : List Field :=
  [Err.fatalBit, Err.fatalCause, Err.ceCnt, Err.ucCnt, Err.fatalCnt, Err.rstCause, Err.interrupted, Err.jrnlSeq] ++
  [Err.ceRetire, Err.ucDay]

/-! ## Page type 0x49, by R449, R451 -/

def Fte.en : Field := ⟨0x40, 0, 1, .pw, 1, 1, 4⟩
def Fte.periodMs : Field := ⟨0x40, 1, 15, .pw, 1000, 1, 4⟩
def Fte.wakeS : Field := ⟨0x40, 16, 12, .pw, 600, 1, 4⟩
def Fte.runCnt : Field := ⟨0x44, 0, 32, .ro, 0, 1, 4⟩
def Fte.mmCnt : Field := ⟨0x48, 0, 32, .ro, 0, 1, 4⟩
def Fte.splitCnt : Field := ⟨0x4C, 0, 32, .ro, 0, 1, 4⟩
def Fte.yieldCnt : Field := ⟨0x50, 0, 32, .ro, 0, 1, 4⟩
def Fte.retireCnt : Field := ⟨0x54, 0, 32, .ro, 0, 1, 4⟩
def Fte.last : Field := ⟨0x58, 0, 13, .ro, 0, 1, 4⟩
/-- The fields of the page type. -/
def Fte.fields : List Field :=
  [Fte.en, Fte.periodMs, Fte.wakeS, Fte.runCnt, Fte.mmCnt, Fte.splitCnt, Fte.yieldCnt, Fte.retireCnt] ++
  [Fte.last]

/-! ## Page type 0x4A, by R449, R451 -/

def Ste.uc24h : Field := ⟨0x800, 0, 8, .pw, 0, 512, 4⟩
def Ste.ce1h : Field := ⟨0x800, 8, 16, .pw, 0, 512, 4⟩
def Ste.ftPass : Field := ⟨0x800, 24, 1, .pw, 0, 512, 4⟩
def Ste.ftOutvoted : Field := ⟨0x800, 25, 1, .pw, 0, 512, 4⟩
def Ste.retired : Field := ⟨0x800, 26, 1, .pw, 0, 512, 4⟩
/-- The fields of the page type. -/
def Ste.fields : List Field :=
  [Ste.uc24h, Ste.ce1h, Ste.ftPass, Ste.ftOutvoted, Ste.retired]

/-- The fields of a page of the type. -/
def pageFields : PageType → List Field
  | .router => Rtr.fields
  | .arrays => Arr.fields
  | .scratchpad => Spm.fields
  | .vectorSet => Vec.fields
  | .sequencer => Seq.fields
  | .counterBank => Cnt.fields
  | .tagBuffer => Tag.fields
  | .site => Site.fields
  | .spring => Spr.fields
  | .clusterClock => Clk.fields
  | .fabricEngine => Fe.fields
  | .queue _ => Que.fields
  | .segmentTable => Seg.fields
  | .eventCounters => Evt.fields
  | .transferEngine => Te.fields
  | .networkEngine => Ne.fields
  | .hedge => Hdg.fields
  | .port => Eth.fields
  | .interface => Ifc.fields
  | .macsec => Mac.fields
  | .rasis => Ras.fields
  | .connections => Con.fields
  | .channel => Mc.fields
  | .mereSummary => Msm.fields
  | .collector => Col.fields
  | .privetStatus => Prv.fields
  | .security => Sec.fields
  | .inputStage => Inp.fields
  | .reference => Ref.fields
  | .powerControl => Pct.fields
  | .clusterControl => Cpc.fields
  | .bringUp => Bup.fields
  | .bootRing => Brg.fields
  | .error => Err.fields
  | .fieldTest => Fte.fields
  | .siteEntries => Ste.fields

end Sys2Proof.Machine
end

