-- ==== Sys2Proof/Machine/State.lean ====
section
/-!
DEFINITION. The state of the module: every register field, counter, memory, queue, mode and pin the spec gives it, as plain
data, the queue of commands that wait, and the state right after power-on reset. Registers are held field by field in
`fld`, keyed by 32 × address + low bit, each with the reset value its layout gives; what a register shows of a unit's
running state (a sequencer's mode, a queue's status) lives in the unit's own record and is read out by Registers.lean.
-/
namespace Sys2Proof.Machine

/-- No behaviour of this module stops the machine: every command completes, is ignored or takes its stated error path.
The type stays closed, with one constructor that nothing raises. -/
inductive Fault where
  /-- Raised by nothing: no rule of the spec stops the module as a whole. Safe. -/
  | none
  deriving DecidableEq, Repr

/-- Refusals. -/
inductive Refusal where
  /-- Raised by an arm of Dispatch.lean whose command has no meaning yet. Safe: the run stops. -/
  | notModelled (mnemonic : String)
  deriving DecidableEq, Repr

/-! ## Matrix sub-arrays, by R61 to R97 -/

/-- The tag of a tile slot, by R69 and R93. -/
inductive SlotTag where
  | float | int | stacks
  deriving DecidableEq, Repr

/-- One tile slot of one sub-array: its tag, and its cells keyed 9 × row + column, column 8 being the checksum cell (R61,
R69). A cell is a DA48 code or a 48-bit integer; an unlisted cell is +0 or 0. -/
structure Slot where
  tag   : SlotTag := .float
  cells : Tbl Int := []
  deriving DecidableEq, Repr

/-- Where an operation stands among the events of R72. -/
inductive ArrStage where
  | queued | streaming | streamed | folded
  deriving DecidableEq, Repr

/-- A bias tile is captured as the layout and codes of its elements; an operand as its element codes, row by row. -/
structure ArrOp where
  shape    : Nat
  ksplit   : Nat
  sub      : Nat
  slot     : Nat
  pt       : Bool
  acc      : Bool
  drain    : Bool
  biasEn   : Bool
  ofmt     : Nat
  sat      : Bool
  stat     : Nat
  statRow  : Nat
  k        : Nat
  m        : Nat
  n        : Nat
  afmt     : Nat
  bfmt     : Nat
  biasFmt  : Nat
  /-- Captured descriptors (R68): BASE, SRC, LAYOUT, STRIDE, SCALE_BASE, SCALE_STRIDE. -/
  adesc    : List Nat
  bdesc    : List Nat
  biasDesc : List Nat
  odesc    : List Nat
  /-- Captured generator words of LFSR operands, A then B (R118). -/
  agen     : List Nat
  bgen     : List Nat
  /-- Row addresses taken from the gather list, for SRC 0b01 (R121); 2^22 marks the zero row. -/
  rows     : List Nat
  stage    : ArrStage := .queued
  /-- A tile conflict of this operation has been counted in ARR_TILE_STALLS (R71). -/
  stalled  : Bool := false
  /-- Operand values taken when the operation streams: element codes of A by row and of B by column, then scale codes. -/
  a        : List (List Nat) := []
  b        : List (List Nat) := []
  ascale   : List (List Nat) := []
  bscale   : List (List Nat) := []
  bias     : List Nat := []
  /-- X and Y of R78, keyed 32 × sub-array + row, and the rows the check skips (R80). -/
  xs       : Tbl Int := []
  ys       : Tbl Nat := []
  skips    : List Nat := []
  deriving DecidableEq, Repr

/-- A drain snapshot waiting in the drain path (R82): the result elements as (row, column, integer tag, value) in drain order. -/
structure Snapshot where
  ofmt     : Nat
  sat      : Bool
  stat     : Nat
  statRow  : Nat
  rowsMax  : Nat
  odesc    : List Nat
  /-- The slots this drain reads, as bits 4s + t, for ARR.WAIT (R87). -/
  slots    : List Nat
  cells    : List (Nat × Nat × Bool × Int)
  /-- A row of the tile failed its check: its drain still completes (R81). -/
  failed   : Bool
  deriving DecidableEq, Repr

/-- A row of the row-statistics store, by R83: m as an FP32 code and s as a DA48 code. -/
structure RowStat where
  m : Nat := 0
  s : Nat := 0
  deriving DecidableEq, Repr

/-! ## Cores, by R98 to R138 -/

/-- The sequencer states of R104. -/
inductive CoreMode where
  | off | idle | run | done | frozen | fault | test
  deriving DecidableEq, Repr

/-- One level of the loop stack, by R109. -/
structure LoopLevel where
  start : Nat
  stop  : Nat
  left  : Nat
  deriving DecidableEq, Repr

/-- A SET.RUN in the set unit, by R123. -/
structure SetOp where
  op     : Nat
  na     : Nat
  nb     : Nat
  cap    : Nat
  rd     : Nat
  ga     : List Nat
  gb     : List Nat
  gp     : List Nat
  gk     : List Nat
  keysEn : Bool
  key64  : Bool
  pc     : Nat
  deriving DecidableEq, Repr

/-- An armed gather index list, by R121. -/
structure GatherArm where
  base   : Nat
  stride : Nat
  bytes  : Nat
  limit  : Nat
  gen    : List Nat
  taken  : Nat
  deriving DecidableEq, Repr

/-- A SEND or RECV in the stream unit, by R119 and R120: bytes already moved of the bytes asked for. -/
structure StrOp where
  recv  : Bool
  chan  : Nat
  gen   : List Nat
  total : Nat
  moved : Nat
  deriving DecidableEq, Repr

/-- The threshold event a Pond was opened with, by R151 and R161. -/
structure PondArm where
  thresh : Nat := 0
  evtEn  : Bool := false
  evtCtr : Nat := 0
  fired  : Bool := false
  /-- The register that PND.CLOSE writes when the Pond reaches CLOSED (R127). -/
  closeRd : Option Nat := none
  deriving DecidableEq, Repr

/-- The private state of one logical core. -/
structure Core where
  mode     : CoreMode := .off
  entry    : Nat := 0
  arg      : Nat := 0
  pc       : Nat := 0
  /-- SEQ_CYC, by R131. -/
  cyc      : Nat := 0
  hold     : Nat := 0
  sregs    : Tbl Word64 := []
  /-- Vector registers, byte i of v(r) at 256 × r + i (R110). -/
  vregs    : Tbl Byte := []
  vl       : Nat := 256
  /-- Local cycle from which a register's value may be read (R101): 0 to 31 scalar, 32 to 63 vector. -/
  ready    : Tbl Nat := []
  /-- Completion cycles of loads in flight (R101). -/
  loads    : List Nat := []
  loops    : List LoopLevel := []
  /-- Tile-program memory by word, by R98, and its damaged words: 1 single-bit, 2 double-bit. -/
  tpm      : Tbl Word64 := []
  tpmBad   : Tbl Nat := []
  /-- Damaged registers, 0 to 31 scalar and 32 to 63 vector: 1 single-bit, 2 double-bit (R134). -/
  regBad   : Tbl Nat := []
  ops      : List ArrOp := []
  /-- Tile slots keyed 4 × sub-array + slot. -/
  slots    : Tbl Slot := []
  /-- Damaged slots: 1 single-bit, 2 double-bit (R97). -/
  slotBad  : Tbl Nat := []
  snaps    : List Snapshot := []
  stats    : Tbl RowStat := []
  /-- Activity ramp, by R74: level in eighths. -/
  ramp     : Nat := 0
  /-- A DRAIN or CLR at the sequencer waits for a busy slot and has been counted (R71). -/
  tileWait : Bool := false
  setq     : List SetOp := []
  arm      : Option GatherArm := none
  strs     : List StrOp := []
  ponds    : Tbl PondArm := []
  /-- Identities of PUTs not yet acknowledged or refused, and refusals since the last PND.FENCE (R127). -/
  puts     : List Nat := []
  refusals : Nat := 0
  /-- SYN.BAR issues of each barrier, and the barrier the core waits in (R128). -/
  bars     : Tbl Nat := []
  barWait  : Option Nat := none
  /-- Cause code of the program fault the core stopped with (R88, R107). -/
  cause    : Nat := 0
  deriving DecidableEq, Repr

/-! ## Fabric, by R165 to R197 -/

/-- Where a dynamic packet stands. -/
inductive PacketPhase where
  /-- Crossing routers; on the escape route of R177 while `via` names its detour row. -/
  | moving (via : Option Nat)
  /-- Discarded at a router for an uncorrectable header (R186). -/
  | lost
  deriving DecidableEq, Repr

/-- A Pond write packet in the fabric, by R149 and R174. -/
structure Packet where
  ident  : Nat
  src    : Nat
  hedge  : Nat
  dst    : Nat
  pond   : Nat
  gen    : Nat
  off    : Nat
  bytes  : List Byte
  /-- Routing position: logical row and column of the router that holds it. -/
  row    : Nat
  col    : Nat
  phase  : PacketPhase
  hops   : Nat
  /-- The input port it came in by: N, S, E, W, CORE. -/
  port   : Nat := 4
  /-- The sender's local cycle at the PUT (R186). -/
  sent   : Nat
  /-- The answer on its way back, of class RSP: 0 acknowledged, else a cause of R149. None: the request, of class REQ (R172). -/
  answer : Option Nat := none
  /-- It goes to the edge endpoint that the edge router at its destination's routing site serves (R174, R175). -/
  edge   : Bool := false
  deriving DecidableEq, Repr

/-- The skid buffer of one router input (R169): its occupancy, and the clock of the router that writes into it. -/
structure Skid where
  occ    : Nat := 3
  sender : Nat := 0
  deriving DecidableEq, Repr

/-! ## Hedges, queues and segments, by R198 to R239 -/

/-- The states of a Hedge number, by R214. -/
inductive HState where
  | unbound | bound | ready | running | frozen | retained | scrubbing
  deriving DecidableEq, Repr

/-- A region of the replay manifest, by R185 and R187. -/
structure Region where
  core     : Nat
  snapshot : Bool
  len      : Nat
  off      : Nat
  copyA    : Nat
  copyB    : Nat
  deriving DecidableEq, Repr

/-- A RUN_STEP in progress, by R218 and R222. -/
structure StepRun where
  entry    : Nat
  arg      : Nat
  once     : Bool
  forecast : Nat
  attempts : Nat
  /-- Reference edge of the attempt's start, for the watchdog of R220. -/
  start    : Nat
  /-- Origin errors charged to each site within this RUN_STEP (R433). -/
  charged  : Tbl Nat
  /-- The core or edge endpoint that reported the error of the freeze (R213). -/
  reporter : Nat
  /-- Step start is due: the next STEP_START of a core of the Hedge makes it RUNNING (R218 step 4, R222 step 5). -/
  armed    : Bool
  /-- Clusters whose Spring has received this attempt's forecast, and the reference edge of the last (R218, R219). -/
  told     : List Nat := []
  toldAt   : Nat := 0
  deriving DecidableEq, Repr

/-- One Hedge number. -/
structure Hedge where
  state      : HState := .unbound
  owner      : Option Nat := none
  commitB    : Bool := false
  postmortem : Bool := false
  spareExh   : Bool := false
  plot       : Nat := 0
  width      : Nat := 0
  height     : Nat := 0
  steered    : Bool := false
  sgroup     : Nat := 0
  image      : Nat := 0
  manifest   : List Region := []
  run        : Option StepRun := none
  /-- Reference edge of the kill that began retention (R158). -/
  killedAt   : Nat := 0
  /-- A kill waits for the shift in progress (R217 step 1). -/
  killWaits  : Bool := false
  /-- A kill has not reached RETAINED or UNBOUND yet (R217). -/
  killing    : Bool := false
  /-- The FE queue's next descriptor is held for a planned shift (R422). -/
  shiftHold  : Bool := false
  /-- Pond descriptors of the cores at step start (R153): their register fields, and their armed thresholds. -/
  pondFld    : Tbl Nat := []
  pondArm    : Tbl (Tbl PondArm) := []
  ponded     : Bool := false
  /-- Cores whose contents were lost (R421), and cores whose tile program the replay rewrites (R138). -/
  reload     : List Nat := []
  rewrite    : List Nat := []
  deriving DecidableEq, Repr

/-- A site shift of a Hedge, by R417 to R419: the sites it retires, and whether it is planned (R422). -/
structure Shift where
  sites   : List Nat
  planned : Bool
  /-- Every receiving site has written its last item; before that the shift is in planning while `started` is false. -/
  copied  : Bool := false
  started : Bool := false
  /-- Copies that a lane parity failure ended. -/
  tries   : Nat := 0
  /-- The Hedge's state before the shift froze it. -/
  resume  : HState
  deriving DecidableEq, Repr

/-- An uncorrected error on its way to the Fabric Engine (R432). -/
structure UcReport where
  hedge : Nat
  core  : Nat
  /-- The tile program of the core must be rewritten (TPM_UC, R138). -/
  tpm   : Bool
  deriving DecidableEq, Repr

/-- A descriptor fetched and not completed, by R206. -/
structure Flight where
  index   : Nat
  desc    : List Byte
  started : Bool
  /-- The engine's count of local cycles at its start (R212). -/
  start   : Nat
  /-- A wait of the descriptor or of WAIT_EVENT has been met (R211), with the counter's value then; a kill or scrub it asked for has
  begun. -/
  met     : Bool
  seen    : Nat := 0
  /-- The descriptors a FENCE waits for: queue and ring index (R215). -/
  fence   : List (Nat × Nat) := []
  /-- Granules and bytes that a transfer which pauses has moved, and its numeric flags so far (R226, R228). -/
  units   : Nat := 0
  bytes   : Nat := 0
  nflags  : Nat := 0
  deriving DecidableEq, Repr

/-- A completion record waiting to be written, by R207 and R212. -/
structure Compl where
  index    : Nat
  tag      : Nat
  opcode   : Nat
  status   : Nat
  nflags   : Nat
  info     : Nat
  attempts : Nat
  duration : Nat
  detail   : Nat
  /-- The event counter to signal after the write (R209), and whether the descriptor asks for an EVENT. -/
  signal   : Option Nat
  event    : Bool
  /-- The queue stops once this record is made, whatever STOP_ON_ERR holds. -/
  stop     : Bool
  /-- The descriptor had been started (R236). -/
  started  : Bool := false
  deriving DecidableEq, Repr

/-- One queue of an engine, by R204 to R207. -/
structure Queue where
  tail     : Nat := 0
  stopped  : Bool := false
  resetting : Bool := false
  flights  : List Flight := []
  /-- The engine half that serves the descriptors in flight: 0 west, 1 east (R27). -/
  half     : Nat := 0
  compl    : List Compl := []
  /-- A completion write failed; the record is held until RESUME (R239). -/
  held     : Bool := false
  /-- DB_ERR and CFG_ERR of Q_STAT (R236). -/
  dbErr    : Bool := false
  cfgErr   : Bool := false
  deriving DecidableEq, Repr

/-! ## Mere, by R240 to R266 -/

/-- What a channel keeps beside its page. -/
structure Chan where
  /-- The next training stage of R250, and attempts failed. -/
  stage       : Nat := 1
  tries       : Nat := 0
  /-- Reference edge of the last request, and power-down (R254). -/
  last        : Nat := 0
  powerDown   : Bool := false
  /-- Code blocks in the block buffer, newest first (R244). -/
  buf         : List Nat := []
  /-- Half blocks written alone that may still meet their partners, with their reference edges (R244). -/
  halves      : List (Nat × Nat) := []
  patrolAt    : Nat := 0
  /-- The last completed retraining: its edge and its temperature (R255). -/
  retrainAt   : Nat := 0
  retrainTemp : Nat := 0
  /-- Windows of the running retraining done, whether one failed, its last end, and a trigger met meanwhile (R257, R260). -/
  windows     : Nat := 0
  winFailed   : Bool := false
  winEnd      : Nat := 0
  again       : Bool := false
  /-- The temperature called for a retraining when the running one began (R260). -/
  wasHot      : Bool := false
  /-- Reference edges of the link-corrected errors of the last 100,000,000 (R259). -/
  links       : List Nat := []
  deriving DecidableEq, Repr

/-! ## Rasis, by R267 to R292 -/

/-- A Rasis packet: the header of R275 and the bytes after it. -/
structure Wire where
  type   : Nat
  /-- [0] SYN, [1] FIN, [2] ACK, [3] ECE, [4] RETX, [5] PROBE. -/
  flags  : Nat
  dst    : Nat
  src    : Nat
  psn    : Nat := 0
  ack    : Nat := 0
  sack   : Nat := 0
  msg    : Nat := 0
  path   : Nat := 0
  status : Nat := 0
  body   : List Byte := []
  deriving DecidableEq, Repr

/-- A packet sent and not acknowledged: the path and reference edge of its last sending. -/
structure Sent where
  wire    : Wire
  path    : Nat
  at_     : Nat
  resent  : Bool := false
  /-- It has been sent at all; it is to go again, or for the first time, on the next path that takes it (R274, R280). -/
  sent    : Bool := true
  held    : Bool := false
  deriving DecidableEq, Repr

/-- A path of a connection (R280, R281): times in reference edges. -/
structure Path where
  inUse    : Bool := false
  suspect  : Bool := false
  timeouts : Nat := 0
  rto      : Nat := 5000
  /-- The smoothed round trip and its deviation, once measured. -/
  trip     : Option (Nat × Nat) := none
  window   : Nat := 16
  /-- Packets acknowledged toward the next growth of the window. -/
  grown    : Nat := 0
  probeAt  : Nat := 0
  /-- A PROBE has been answered since the interface came up (R273). -/
  answered : Bool := false
  deriving DecidableEq, Repr

/-- Connection states of R290. -/
inductive ConnState where
  | free | opening | opened | closing
  deriving DecidableEq, Repr

/-- An acknowledgement as it arrived. -/
structure AckIn where
  ack  : Nat
  sack : Nat
  ece  : Bool
  /-- It answers a PROBE. -/
  probe : Bool
  /-- The interface it arrived on. -/
  path : Nat
  deriving DecidableEq, Repr

/-- A connection, by R278 to R281 and R290. -/
structure Conn where
  state     : ConnState := .free
  /-- 0 host, 1 peer, 2 management. -/
  kind      : Nat := 0
  devEvents : Bool := false
  peer      : Nat := 0
  addrs     : List Nat := []
  txPsn     : Nat := 0
  rxPsn     : Nat := 0
  /-- Packets waiting to be sent, packets sent and not acknowledged, and packets received out of order. -/
  txq       : List Wire := []
  unacked   : List Sent := []
  early     : List Wire := []
  /-- Packets delivered in PSN order and not yet acted on; acknowledgements and probes not yet acted on; the STATUS of a FIN outside the sequence, which
  refuses a SYN or answers for a connection that is not OPEN. -/
  inbox     : List Wire := []
  acks      : List AckIn := []
  probes    : List Nat := []
  fin       : Option Nat := none
  /-- Packets received and not acknowledged, and the reference edge of the oldest. -/
  owed      : Nat := 0
  owedAt    : Nat := 0
  ece       : Bool := false
  paths     : Tbl Path := []
  retx      : Nat := 0
  /-- Reference edges of the last packet received, of the last advance of the peer's ACK_PSN and of the last PROBE sent. -/
  lastRx    : Nat := 0
  advanced  : Nat := 0
  probed    : Nat := 0
  /-- Reference edge of the last packet with a PSN in either direction (R295), the initial PSN of the peer's SYN (R278), and whether the first request
  of the inbox has begun (R284). -/
  usedAt    : Nat := 0
  synPsn    : Nat := 0
  begun     : Bool := false
  deriving DecidableEq, Repr

/-- An interface's state: DOWN, TRAINING, held for 100 ms after training, or UP (R273), with the edge it was entered at; by priority, the edge
to which a pause holds it (R268). -/
structure Ifc where
  state  : Nat := 0
  since  : Nat := 0
  paused : Tbl Nat := []
  /-- The association of the transmit channel whose key was installed last (R272). -/
  txAn   : Option Nat := none
  /-- Edges of the uncorrectable FEC codewords of the last millisecond, newest first, at most 17, and whether they have been more than 16 (R273). -/
  fecs   : List Nat := []
  fecBad : Bool := false
  /-- A local and a remote fault present, and auto-negotiation complete (R287). -/
  localFault  : Bool := false
  remoteFault : Bool := false
  anDone : Bool := false
  /-- The edge at which they last took the interface DOWN. -/
  fecDown : Option Nat := none
  deriving DecidableEq, Repr

/-- An association of a MACsec channel (R272, R460): SSCI, salt, key and the last packet number sent, or received and accepted. -/
structure MacAssoc where
  ssci : Nat
  salt : List Byte
  key  : List Byte
  pn   : Nat := 0
  deriving DecidableEq, Repr

/-! ## Collectives, by R293 to R321 -/

/-- What a step of a collective's plan does with a range of elements (R302, R303): send partials, forward sealed segments, add
received values, keep received values, or seal a range through the transport encoding (R304). -/
inductive XferKind where
  | send | forward | reduce | store | seal
  deriving DecidableEq, Repr

/-- One transfer of a plan: chunks [lo, hi) with a peer rank in a step. -/
structure Xfer where
  kind  : XferKind
  step  : Nat
  peer  : Nat
  lo    : Nat
  hi    : Nat
  /-- A send is sent, a receive complete, a seal made; a send's CONFIRM has arrived. -/
  fin   : Bool := false
  conf  : Bool := false
  /-- Offsets of segments accepted, and of segments that failed once. -/
  got   : List Nat := []
  bad   : List Nat := []
  /-- A send's values, kept until its CONFIRM (R312). -/
  copy  : Tbl (Nat × Nat) := []
  deriving DecidableEq, Repr

/-- An encoded segment as it is sent: its elements, data bytes and digests. -/
structure Seg where
  n     : Nat
  data  : List Byte
  sum   : Nat
  mag   : Nat
  deriving DecidableEq, Repr

/-- A collective or point-to-point descriptor in progress. -/
structure Job where
  queue  : Nat
  index  : Nat
  comm   : Nat
  op     : Nat
  alg    : Nat
  seq    : Nat
  size   : Nat
  rank   : Nat
  peer   : Nat
  /-- Chunks the vector is cut into, and its elements. -/
  chunks : Nat
  total  : Nat
  plan   : List Xfer
  /-- DA48 code and index of each element held, and sealed segments by offset. -/
  vals   : Tbl (Nat × Nat)
  segs   : Tbl Seg := []
  nflags : Nat := 0
  /-- Ranks whose READY has arrived, and ranks this one has sent READY to. -/
  ready  : List Nat := []
  told   : List Nat := []
  /-- SHUFFLE (R306): records for each rank, counts received, records received by source and the offset of their segment, ranks counts and data went
  to and ranks that confirmed. -/
  outRec : Tbl (List (List Byte)) := []
  counts : Tbl Nat := []
  inRec  : Tbl (Tbl (List (List Byte))) := []
  sentTo : List Nat := []
  conf   : List Nat := []
  /-- Reference edge of the last arrival (R314). -/
  last   : Nat := 0
  deriving DecidableEq, Repr

/-! ## Errors and the journal, by R429 to R453 -/

/-- An entry of the field defect log, by R403. -/
structure Defect where
  kind    : Nat
  cause   : Nat
  source  : Nat
  unit    : Nat
  boot    : Nat
  powerOn : Nat
  deriving DecidableEq, Repr

/-- A journal record, by R436. -/
structure JRec where
  seq     : Nat
  powerOn : Nat
  boot    : Nat
  edges   : Nat
  cls     : Nat
  blkType : Nat
  inst    : Nat
  code    : Nat
  hedge   : Nat
  info    : Nat
  deriving DecidableEq, Repr

/-- CEs of one page (R435): the edge of its last CE record, the CEs since, and the bit of the last of them. -/
structure CeAgg where
  at_  : Nat := 0
  n    : Nat := 0
  code : Nat := 0
  deriving DecidableEq, Repr

/-! ## Power, clocks and Privet, by R322 to R481 -/

/-- What a cluster keeps beside its pages. -/
structure Cluster where
  /-- Reference edge of its last activity, and of its last change of clock state. -/
  busyAt   : Nat := 0
  clkAt    : Nat := 0
  /-- Local cycles it has received since device reset (R484). -/
  edges    : Nat := 0
  /-- Locks of the running start that have failed (R367). -/
  lockTry  : Nat := 0
  /-- The lock under way starts from STANDBY, not from PARK. -/
  standby  : Bool := false
  /-- A generator that lost its lock relocks from PARK (R367). -/
  relock   : Bool := false
  /-- A wake start or bring-up started the ramp; a forecast waits for PGOOD (R332). -/
  fcWaits  : Bool := false
  fcAt     : Nat := 0
  /-- VCODE steps that the running forecast adds to the target (R332). -/
  fcOff    : Nat := 0
  /-- Phases enabled (R332). -/
  phases   : Nat := 0
  /-- Valid resistance estimates, newest first, at most 16 (R335). -/
  ests     : List Nat := []
  /-- Edges of the estimates at 1.40 × RBASE or above since the last one below, newest first, at most 100; and the edge of that last one, or of
  the start at S3. -/
  highs    : List Nat := []
  lowAt    : Nat := 0
  /-- Edge of the last wake that Privet asked for to test a site of it (R437). -/
  testWake : Option Nat := none
  /-- Cap of R335 on the effective limit, in A. -/
  impCap   : Nat := 80
  /-- Reference edge its last wake ramp started at (R333), if one has. -/
  rampAt   : Option Nat := none
  /-- Detectors of the running droop, and the edge since when one has been asserted without a break (R359, R370). -/
  droopAt  : Option Nat := none
  /-- Issue limiter (R370): consecutive periods at or below the limit; sum and number of L over the running millisecond (R375). -/
  okRun    : Nat := 0
  lSum     : Nat := 0
  lCnt     : Nat := 0
  /-- Thermal control (R386): predicted to reach 100 °C, the last sample at or above 105 °C, and since when each sensor has differed from
  the median. -/
  hot      : Bool := false
  warmAt   : Nat := 0
  oddAt    : Tbl Nat := []
  /-- The running 1 ms sample of R384: sums of P_MEAS and P_EST, and how many. -/
  measSum  : Nat := 0
  estSum   : Nat := 0
  measN    : Nat := 0
  /-- Estimation (R382 to R385): weights in 1/256 of their fused defaults, consecutive samples outside and within 25 %, the edge of the
  DIVERGED mark, a refit or a recalibration due, the edge a recalibration began at, and the gain correction applied, in 1/1,000. -/
  weights  : List Nat := List.replicate 8 256
  offRun   : Nat := 0
  inRun    : Nat := 0
  divAt    : Nat := 0
  refitDue : Bool := false
  recalDue : Bool := false
  recalAt  : Option Nat := none
  gain     : Int := 0
  deriving DecidableEq, Repr

/-- The arm of a step change (R356, R360, R362): target code, count S, the edge A it left at, and whether force-minimum sent it. A switched arm is
checked at E + 8 (R367). -/
structure Arm where
  target : Nat
  count  : Nat
  sent   : Nat
  forced : Bool
  deriving DecidableEq, Repr

/-- Input power, the sideband pins and the control loops of Privet (R322 to R326, R356 to R375, R386 to R389, R446, R527). -/
structure Power where
  /-- Privet is powered; PWR_GOOD is released high; THERMTRIP_N is latched; RESET_N and FORCE_MIN_N are low. -/
  privetOn : Bool := true
  pwrGood  : Bool := false
  thermTrip : Bool := false
  resetLow : Bool := false
  forceLow : Bool := false
  /-- POWER_FAIL has been raised and no reset has followed. -/
  failing  : Bool := false
  /-- The step change under way, switched arms whose check at E + 8 is open, the last droop firing of the device, consecutive refusals, and the
  edge to which the step is held (R360). -/
  arm      : Option Arm := none
  switched : Option Nat := none
  droopAt  : Option Nat := none
  refusals : Nat := 0
  heldTo   : Nat := 0
  /-- The cap last accepted; the Mere thermal reduction in steps of 5 %, and the edge of its last change (R387). -/
  mereCut  : Nat := 0
  mereAt   : Nat := 0
  /-- What the running millisecond has shown (R375): P_in above 0.90 × C_eff, a cluster above 95 °C, one with TF below 16, force-minimum. -/
  sawPin   : Bool := false
  sawHot   : Bool := false
  sawTf    : Bool := false
  sawForce : Bool := false
  decided  : Nat := 0
  /-- Periods in a row outside and within 5 % (R372), and since when P_in has exceeded C_eff (R388). -/
  mmRun    : Nat := 0
  mmOk     : Nat := 0
  overAt   : Option Nat := none
  /-- The Privet watchdog (R446): Privet is away since an edge, and the edges of its resets in the last 60 s. -/
  away     : Option Nat := none
  wdogs    : List Nat := []
  escalated : Bool := false
  /-- The epoch count and the edge the running epoch began at (R378). -/
  epoch    : Nat := 0
  epochAt  : Nat := 0
  deriving DecidableEq, Repr

/-- A grant of watts between members of a steering group (R379): given by this device or received by it, the other member, and the edges of the last
GRANT or RENEW and of the last ACCEPT. -/
structure Grant where
  given   : Bool
  hedge   : Nat
  group   : Nat
  peer    : Nat
  ident   : Nat
  watts   : Nat
  renewed : Nat
  acked   : Nat
  deriving DecidableEq, Repr

/-- A REPORT as it arrived (R378). -/
structure Report where
  group    : Nat
  from'    : Nat
  wait     : Nat
  base     : Nat
  net      : Int
  eligible : Bool
  at_      : Nat
  deriving DecidableEq, Repr

/-- A steering group's member table (R377, R460). -/
structure SteerTab where
  own     : Nat
  members : List (List Nat)
  key     : List Byte
  /-- The highest MCOUNT accepted from each member, and the next to send. -/
  seen    : Tbl Nat := []
  next    : Nat := 1
  deriving DecidableEq, Repr

/-- The fuses, set at manufacture (R2, R355, R356, R402, R470, R472): the grade (0 A, 1 B, 2 C), VCODEs that differ from the typical table keyed
64 × cluster + step code, arrival latencies, the three copies of the defect fuse map by word, the serial, the SVN count and revoked
vendor slots (bit 0 and 1 ECDSA, bit 2 and 3 LMS). Beside them, what the inventory EEPROM says of grade and module revision (R529). -/
structure Fuses where
  grade   : Nat := 0
  vtab    : Tbl Nat := []
  trim    : Tbl Nat := []
  mapA    : Tbl Nat := []
  mapB    : Tbl Nat := []
  mapC    : Tbl Nat := []
  serial  : Nat := 0
  svn     : Nat := 0
  revoked : Nat := 0
  eeGrade : Nat := 0
  eeRev   : Nat := 0
  deriving DecidableEq, Repr

/-- Privet's flash beside the field defect log (R455): image slots with what each holds, the slot pointer, the trial boots of the new image that
failed, the journal, configuration entries (address, value, mask), the authority keys, SREQ_CTR, the HSS index, the last cap, CAP_DEFAULT and the steering tables. -/
structure Flash where
  slotA   : List Byte := []
  slotB   : List Byte := []
  validA  : Bool := true
  validB  : Bool := false
  /-- The inactive slot was left half written; S0 journals it. -/
  torn    : Bool := false
  slot    : Nat := 0
  trial   : Bool := false
  trials  : Nat := 0
  journal : List JRec := []
  config  : List (Nat × Nat × Nat) := []
  auth    : List Byte := List.replicate 152 0
  sreq    : Nat := 0
  hss     : Nat := 0
  lastCap : Nat := 15500
  capDef  : Nat := 15500
  steer   : Tbl SteerTab := []
  deriving DecidableEq, Repr

/-- A ROUTINE session (R462, R463): its number, owner Hedge number's connection when opened on a Mailbox queue, the edge and lifetime, the last counter
accepted, its keys, and the telemetry push it asked for. -/
structure Session where
  number : Nat
  owner  : Option Nat
  opened : Nat
  life   : Nat
  last   : Nat := 0
  mac    : List Byte
  wrap   : List Byte
  push   : Nat := 0
  pushAt : Nat := 0
  /-- MCOUNT of the last TELEMETRY message. -/
  count  : Nat := 0
  deriving DecidableEq, Repr

/-- A request block that Privet has taken up: its source (0 to 3 a Mailbox queue, 4 + k connection k), the flight's ring index or the exchange number, and
its bytes. -/
structure PReq where
  src   : Nat
  ident : Nat
  block : List Byte
  deriving DecidableEq, Repr

/-- An FW_UPDATE under way (R447): its request, the image read, and whether a watchdog reset ended it. -/
structure Update where
  req    : PReq
  image  : List Byte
  broken : Bool := false
  deriving DecidableEq, Repr

/-- An MGMT block arriving in fragments (R466). -/
structure Frag where
  xid   : Nat
  total : Nat
  bytes : List Byte
  deriving DecidableEq, Repr

/-- What bring-up has found (R397 to R413). -/
structure Boot where
  /-- S0 has begun; the edge the running stage began at; the records it has written; whether one of them, or of any stage, is degraded. -/
  begun   : Bool := false
  stageAt : Nat := 0
  written : Nat := 0
  soft    : Bool := false
  degraded : Bool := false
  /-- The stage and the number of a bring-up that a reset interrupted (R398). -/
  broken  : Option (Nat × Nat) := none
  /-- Sites of the voted fuse map, repairs in use, sites excluded for any cause, and unusable paths by their two sites (R402 to R407). -/
  fused   : List Nat := []
  repairs : List Nat := []
  bad     : List Nat := []
  badPath : List (Nat × Nat) := []
  /-- Edge routers that failed at S4, numbered north, south, west, east (R407). -/
  badEdge : List Nat := []
  /-- The next wave of S3; clusters kept in PARK; clusters that tripped, with their cause; clusters with phases off, and how many phases. -/
  wave    : Nat := 0
  held    : List Nat := []
  darks   : List (Nat × Nat) := []
  phased  : List Nat := []
  phases  : Nat := 0
  /-- Passes of S7; the ports are configured and S9 waits; the ports have been started. -/
  passes  : Nat := 0
  linking : Bool := false
  ports   : Bool := false
  deriving DecidableEq, Repr

/-- One seed of the field tests (R437 to R441): its sites with the edge each was assigned at, the sites in TEST, the digests given so far, and
whether two of them differed, so that a third site is due. -/
structure TestRun where
  seed    : Nat
  sites   : List (Nat × Nat)
  running : List Nat
  digests : List (Nat × Nat)
  third   : Bool
  deriving DecidableEq, Repr

/-- A counter bank (R482, R483, R491): fixed counters F1 to F3, programmable counters, and its windows: bytes of the running window, LAST and MAX. -/
structure Bank where
  fixed  : Tbl Nat := []
  prog   : Tbl Nat := []
  cur    : Tbl Nat := []
  last   : Tbl Nat := []
  max    : Tbl Nat := []
  /-- Read latches (R487): 0 to 3 fixed, 4 to 11 programmable, 16 + w LAST and 32 + w MAX of window w. -/
  latch  : Tbl Nat := []
  /-- Vector lane operations and products below a unit of 64, by event code. -/
  rest   : Tbl Nat := []
  /-- Windows ended; a running window that a change of BW_LOG2 cut short. -/
  ended  : Nat := 0
  short  : Bool := false
  /-- F0 of a core bank less the edges of the cluster that holds the core; the core was lost since the last record (R490). -/
  off    : Int := 0
  lost   : Bool := false
  deriving DecidableEq, Repr

/-- A tagged instruction in flight (R498, R499): its ISSUE, PC, class, opcode and step entry, and a free value for the stamps it has reached. -/
structure TagFlight where
  at_   : Nat
  pc    : Nat
  cls   : Nat
  op    : Nat
  entry : Nat
  free  : Nat
  deriving DecidableEq, Repr

/-- What Privet or a port reports with an EVENT that no page bit carries (R283). -/
inductive Notice where
  | fatal (cause : Nat)
  | link (ifc : Nat) (up : Bool)
  /-- A planned retirement of a site, or of a cluster by its first site, found no spare (R335, R423). -/
  | noSpare (site : Nat)
  /-- An engine completion for the owner of a Hedge number: its queue and record (R207). -/
  | completion (hedge queue : Nat) (record : List Byte)
  deriving DecidableEq, Repr

/-- What the module puts out, newest last. -/
inductive Out where
  /-- A granule returned to a requester of Mere, and whether it is good (R244). -/
  | granule (addr : Nat) (bytes : List Byte) (good : Bool)
  /-- A Rasis packet sent on an interface: destination MAC, peer address, VLAN ID, priority, ECN codepoint and the entropy of its UDP source
  port (R268 to R270, R281). -/
  | packet (ifc mac addr vid pcp ecn entropy : Nat) (wire : Wire)
  /-- The answer to an ARP request or a Neighbour Solicitation for an own address, with its destination MAC (R269). -/
  | ownAddress (ifc mac vid addr : Nat)
  /-- A PFC pause frame: priorities and quanta (R268). -/
  | pause (ifc prios quanta : Nat)
  /-- A byte of the inventory EEPROM (R529). -/
  | inventory (off : Nat) (byte : Byte)
  /-- What the debug connector reads (R477). -/
  | debug (bytes : List Byte)
  deriving DecidableEq, Repr

/-! ## The state -/

/-- The machine's state. -/
structure State where
  fld      : Tbl Nat := []
  mem      : List Host.Cell := []
  /-- Damaged words of scratchpads (by 8-byte address) and blocks of Mere (by 64-byte address): 1 single-bit,
  2 double-bit, 3 poison. -/
  damage   : Tbl Nat := []
  cores    : Tbl Core := []
  packets  : List Packet := []
  nextPkt  : Nat := 0
  /-- Static buffers of R173, keyed 8 × (5 × core + input port) + channel: flits, oldest first. -/
  flits    : Tbl (List (List Byte)) := []
  /-- Bytes ejected on an inbound channel and not yet taken by a RECV (R120), keyed 8 × core + channel. -/
  rest     : Tbl (List Byte) := []
  /-- The plot-to-Hedge table the Fabric Engine last gave every router, and routers that hold another (R174). -/
  rtrAll   : List Nat := List.replicate 32 0
  rtrOwn   : Tbl (List Nat) := []
  /-- Detour row of each row that has a broken segment (R177, R408). -/
  detour   : Tbl Nat := []
  hedges   : Tbl Hedge := []
  queues   : Tbl Queue := []
  /-- Event counters of 64 bits, their staged high words and read latches (R210, R211). -/
  evt      : Tbl Nat := []
  evtStage : Tbl Nat := []
  evtLatch : Tbl Nat := []
  ucs      : List UcReport := []
  /-- Pages whose enabled status bits rose and whose EVENT has not been sent (R514). -/
  evtDue   : List Nat := []
  notices  : List Notice := []
  /-- Holes, disabled plots and lost cores of the logical map (R14, R24, R423), ascending, and cores whose site is pinned in a
  group with two or more holes (R538). -/
  holes    : List Nat := []
  disabled : List Nat := []
  lost     : List Nat := []
  pinned   : Tbl Nat := []
  /-- Planned retirements: site and cause (R422). Sites that failed and await their immediate shift, with their cause (R420). Shifts
  by Hedge number. Sites of planned retirements without a spare, whose plot goes when its binding ends (R423). -/
  planned  : List (Nat × Nat) := []
  failed   : List (Nat × Nat) := []
  shifts   : Tbl Shift := []
  doomed   : List Nat := []
  /-- Sites made holes at runtime (R507). -/
  retired  : List Nat := []
  /-- Clusters that an activity wakes (R330, R352). -/
  wakeReqs : List Nat := []
  clus     : Tbl Cluster := []
  /-- The half cycle of phase difference between two clusters that has made no net slip yet (R169), keyed 512 × lower + higher. -/
  halfSlips : Tbl Int := []
  /-- Skid buffers by 8 × site + input (N, S, E, W, E-skip, W-skip), and the flits written into each since the last reference edge (R169). -/
  skids    : Tbl Skid := []
  linkSent : Tbl Nat := []
  /-- The reference edge until which a router that changes its map holds its inputs, by site (R180). -/
  mapHold  : Tbl Nat := []
  /-- The map of the running bring-up has been written, and RTR_CFG with it (R192). -/
  mapped   : Bool := false
  pwr      : Power := {}
  /-- Bulk cells that have failed in this power cycle (R326). -/
  deadCells : List Nat := []
  /-- Steering (R377 to R381): grants, reports, edges of the epoch in which each Hedge's collectives waited, and epochs without eligibility. -/
  grants   : List Grant := []
  reports  : List Report := []
  waited   : Tbl Nat := []
  dry      : Tbl Nat := []
  nextGrant : Nat := 1
  fuses    : Fuses := {}
  flash    : Flash := {}
  /-- Sessions by source, 0 to 3 a Mailbox queue and 4 + k connection k; requests taken up, and the source served last (R467); the FW_UPDATE
  under way; fragments by connection. -/
  sessions : Tbl Session := []
  preqs    : List PReq := []
  served   : Nat := 0
  busy     : Option Update := none
  frags    : Tbl Frag := []
  /-- A DEVICE_RESET whose completion has been written, and when (R460). -/
  resetAt  : Option Nat := none
  /-- The Mailbox queue whose completion a DEVICE_RESET waits for. -/
  resetReq : Option Nat := none
  /-- MACsec associations, keyed 8 × interface + 4 × direction + number (0 transmit, 1 receive). -/
  macKeys  : Tbl MacAssoc := []
  boot     : Boot := {}
  tests    : List TestRun := []
  /-- Edge of each site's last field test, and of the last change to IDLE of each core (R437). -/
  testedAt : Tbl Nat := []
  idleAt   : Tbl Nat := []
  /-- Sites of a three-way disagreement, to be tested again (R441). -/
  retest   : List Nat := []
  /-- Sites that disagreed three ways, which are no partners of one another until all have voted again, with those that have not (R441). -/
  splits   : List (List Nat × List Nat) := []
  /-- BLK_ERR bits that the next reset keeps (R345, R396, R427, R452, R481), as page address × 32 + bit. -/
  fresh    : List Nat := []
  /-- Times of the errors on each router input, keyed 8 × site + port (R416), and sites those errors condemn. -/
  linkErrs : Tbl (List Nat) := []
  suspects : List Nat := []
  /-- Reference edge of each site's last heartbeat, and sites whose last one was QUIET (R415). -/
  hbAt     : Tbl Nat := []
  hbQuiet  : List Nat := []
  /-- Edges of each site's origin errors of the last 24 h and of its CEs of the last hour (R433). -/
  siteUc   : Tbl (List Nat) := []
  siteCe   : Tbl (List Nat) := []
  /-- Mere channels, the channel last granted in each group (R256), and the end of the zero fill of R252. -/
  chans    : Tbl Chan := []
  mcLast   : Tbl Nat := []
  filled   : Bool := false
  /-- The field defect log in flash (R403). -/
  dlog     : List Defect := []
  outbox   : List Out := []
  /-- Counter banks: a core's by its number, the other banks of R482 from 4,096 up; local cycles of the engine halves; tagged instructions
  in flight by core; the collector's last sweep, and the sweep numbers of end markers that wait for room, by stream (R495). -/
  banks    : Tbl Bank := []
  engCyc   : Nat := 0
  tagged   : Tbl TagFlight := []
  sweptAt  : Nat := 0
  owedEnd  : Tbl (List Nat) := []
  conns    : Tbl Conn := []
  ifcs     : Tbl Ifc := []
  /-- SYN packets received and not yet acted on, with their source address; sources answered with NO_CONN and when (R282). -/
  jobs     : List Job := []
  /-- CSEQ of each communicator, and point-to-point sequence numbers keyed (2 × comm + direction) × 2048 + rank (R294). -/
  cseq     : Tbl Nat := []
  p2pSeq   : Tbl Nat := []
  /-- READY arrivals before their collective starts: communicator, rank, sequence number and opcode (R313). -/
  readys   : List (Nat × Nat × Nat × Nat) := []
  syns     : List (Nat × Wire) := []
  noConnAt : Tbl Nat := []
  /-- Journal RAM buffer, records lost to overflow, and the last CE record of each page with the CEs since (R435). -/
  jbuf     : List JRec := []
  jover    : Nat := 0
  ceAgg    : Tbl CeAgg := []
  /-- Power-on count (R403), bring-up number within the power cycle, and the reference edge of its start (R436). -/
  powerOn  : Nat := 0
  bootNo   : Nat := 0
  bootAt   : Nat := 0
  /-- Reference edges since power-on: the model's time base, and its value at the last device reset. -/
  now      : Nat := 0
  resetEdge : Nat := 0
  freeCtr  : Nat := 0
  pending  : List Instr := []
  deriving DecidableEq, Repr

/-- The machine right after a power-on reset: every field at the value its layout or structure gives. -/
def State.reset : State := {}

end Sys2Proof.Machine
end

