-- ==== Sys2Proof/Machine/Ops.lean ====
section
/-!
DEFINITION. The named operations every unit shares: register fields and pages, memory, the logical map, error reporting by
class (R430 to R433), the journal (R435), free values, and the stop of a Hedge's cores.
-/
namespace Sys2Proof.Machine

/-! ## Register fields -/

/-- The key of a field in `State.fld`. -/
def fkey (base : Nat) (f : Field) (i : Nat) : Nat := (base + f.off + i * f.stride) * 32 + f.lo

/-- A field of the page at `base`; `i` picks one of a repeated register. -/
def getF (s : State) (base : Nat) (f : Field) (i : Nat := 0) : Nat := tblGet f.rst s.fld (fkey base f i)

/-- Writes a field, cut to its width. -/
def setF (base : Nat) (f : Field) (v : Nat) (s : State) (i : Nat := 0) : State :=
  { s with fld := tblPut f.rst s.fld (fkey base f i) (v % 2 ^ f.len) }

/-- Adds to a field modulo its width: every page counter wraps (R89, R135, R159, R191). -/
def addF (base : Nat) (f : Field) (n : Nat) (s : State) (i : Nat := 0) : State :=
  setF base f (getF s base f i + n) s i

/-- Raises a field to the field's largest value at most: a saturating count. -/
def addSat (base : Nat) (f : Field) (n : Nat) (s : State) (i : Nat := 0) : State :=
  setF base f (min (getF s base f i + n) (2 ^ f.len - 1)) s i

/-- ORs bits into a field. -/
def orF (base : Nat) (f : Field) (v : Nat) (s : State) (i : Nat := 0) : State :=
  setF base f (getF s base f i ||| v) s i

/-- Clears every stored field whose register lies in [lo, hi): each then reads its reset value. -/
def resetRange (lo hi : Nat) (s : State) : State := { s with fld := tblDrop (lo * 32) (hi * 32) s.fld }

/-! ## Page addresses, by R502 to R518 -/

/-- A register page: its address, type and instance. -/
structure Page where
  base : Nat
  ty   : PageType
  inst : Nat
  deriving DecidableEq, Repr

def coreWindow (c : Nat) : Nat := 0x0F0000000000 + c * 0x10000
def siteWindow (p : Nat) : Nat := 0x0F0100000000 + p * 0x10000
def clusterWindow (cl : Nat) : Nat := 0x0F0200000000 + cl * 0x2000
def arrPage (c : Nat) : Nat := coreWindow c + 0x1000
def spmPage (c : Nat) : Nat := coreWindow c + 0x2000
def vecPage (c : Nat) : Nat := coreWindow c + 0x3000
def seqPage (c : Nat) : Nat := coreWindow c + 0x4000
def corePageCnt (c : Nat) : Nat := coreWindow c + 0x5000
def tagPage (c : Nat) : Nat := coreWindow c + 0x6000
/-- Router registers are held by physical site: a core window shows the router of the site that holds the core (R505). -/
def rtrPage (p : Nat) : Nat := siteWindow p
def sitePage (p : Nat) : Nat := siteWindow p + 0x1000
def sprPage (cl : Nat) : Nat := clusterWindow cl
def clkPage (cl : Nat) : Nat := clusterWindow cl + 0x1000
def fePage : Nat := 0x0F0300000000
def segPage : Nat := 0x0F0300040000
def evtPage (k : Nat) : Nat := 0x0F0300080000 + 0x1000 * k
def tePage : Nat := 0x0F0300100000
def nePage : Nat := 0x0F0300200000
def hdgPage (h : Nat) : Nat := 0x0F0300600000 + 0x1000 * h
def ethPage (p : Nat) : Nat := 0x0F0300300000 + 0x10000 * p
def ifcPage (i : Nat) : Nat := ethPage (i / 2) + 0x1000 * (1 + i % 2)
def macPage (p : Nat) : Nat := ethPage p + 0x3000
def rasPage : Nat := 0x0F0300320000
def conPage (k : Nat) : Nat := 0x0F0300330000 + 0x1000 * k
def mcPage (ch : Nat) : Nat := 0x0F0300400000 + 0x1000 * ch
def msmPage : Nat := 0x0F03004FF000
def colPage : Nat := 0x0F0300500000
def prvPage : Nat := 0x0F0F00000000
def secPage : Nat := 0x0F0F00001000
def inpPage : Nat := 0x0F0F00004000
def refPage : Nat := 0x0F0F00005000
def pctPage : Nat := 0x0F0F00006000
def bupPage : Nat := 0x0F0F00007000
def errPage : Nat := 0x0F0F00008000
def ftePage : Nat := 0x0F0F00009000
def cpcPage (k : Nat) : Nat := 0x0F0F00020000 + 0x1000 * k
def brgPage (k : Nat) : Nat := 0x0F0F00030000 + 0x1000 * k
def stePage (k : Nat) : Nat := 0x0F0F00040000 + 0x1000 * k

/-- Queue number of an engine in the model's one numbering: FE 0 to 31, TE 32 to 95, NE 96 to 127, MB 128 to 131. -/
def quePage (q : Nat) : Nat :=
  if q < 32 then 0x0F0300000000 + 0x1000 * (q + 1)
  else if q < 96 then 0x0F0300100000 + 0x1000 * (q - 32 + 1)
  else if q < 128 then 0x0F0300200000 + 0x1000 * (q - 96 + 1)
  else 0x0F0F00010000 + 0x1000 * (q - 128)

/-- TYPE code of a queue page. -/
def queCode (q : Nat) : Nat := if q < 32 then 0x21 else if q < 96 then 0x25 else if q < 128 then 0x27 else 0x29

def queInst (q : Nat) : Nat := if q < 32 then q else if q < 96 then q - 32 else if q < 128 then q - 96 else q - 128

def pgArr (c : Nat) : Page := ⟨arrPage c, .arrays, c⟩
def pgSpm (c : Nat) : Page := ⟨spmPage c, .scratchpad, c⟩
def pgSeq (c : Nat) : Page := ⟨seqPage c, .sequencer, c⟩
def pgRtr (p : Nat) : Page := ⟨rtrPage p, .router, p + 0x8000⟩
def pgSpr (cl : Nat) : Page := ⟨sprPage cl, .spring, cl⟩
def pgClk (cl : Nat) : Page := ⟨clkPage cl, .clusterClock, cl⟩
def pgQue (q : Nat) : Page := ⟨quePage q, .queue (queCode q), queInst q⟩
def pgNe : Page := ⟨nePage, .networkEngine, 0⟩
def pgEth (p : Nat) : Page := ⟨ethPage p, .port, p⟩
def pgMc (ch : Nat) : Page := ⟨mcPage ch, .channel, ch⟩
def pgSec : Page := ⟨secPage, .security, 0⟩
def pgInp : Page := ⟨inpPage, .inputStage, 0⟩
def pgRef : Page := ⟨refPage, .reference, 0⟩
def pgPct : Page := ⟨pctPage, .powerControl, 0⟩
def pgBup : Page := ⟨bupPage, .bringUp, 0⟩
def pgErr : Page := ⟨errPage, .error, 0⟩

/-! ## Records of units -/

def getCore (s : State) (c : Nat) : Core := tblGet {} s.cores c
def putCore (c : Nat) (k : Core) (s : State) : State := { s with cores := tblPut {} s.cores c k }
def getHedge (s : State) (h : Nat) : Hedge := tblGet {} s.hedges h
def putHedge (h : Nat) (k : Hedge) (s : State) : State := { s with hedges := tblPut {} s.hedges h k }
def getQueue (s : State) (q : Nat) : Queue := tblGet {} s.queues q
def putQueue (q : Nat) (k : Queue) (s : State) : State := { s with queues := tblPut {} s.queues q k }

/-- A scalar register; s0 reads zero (R100). -/
def sreg (k : Core) (r : Nat) : Word64 := if r = 0 then 0 else tblGet 0 k.sregs r

/-- A write of a scalar register, whose word then holds no damage; a write of s0 is discarded (R100). -/
def setSreg (r : Nat) (v : Word64) (k : Core) : Core :=
  if r = 0 then k else { k with sregs := tblPut 0 k.sregs r v, regBad := tblErase r k.regBad }

/-! ## Free values -/

/-- Draws a free value: the value drawn, and the state with the model's counter advanced. -/
def draw (s : State) : Nat × State := (Config.freeNat s.freeCtr, { s with freeCtr := s.freeCtr + 1 })

/-! ## Numbers of units, by R12 to R14 -/

def coreRow (c : Nat) : Nat := c / 64
def coreCol (c : Nat) : Nat := c % 64
def coreAt (row col : Nat) : Nat := row * 64 + col
def plotOfCore (c : Nat) : Nat := coreRow c / 16 * 8 + coreCol c / 8
def siteRow (p : Nat) : Nat := p / 72
def siteCol (p : Nat) : Nat := p % 72
def siteAt (row col : Nat) : Nat := row * 72 + col
def plotOfSite (p : Nat) : Nat := siteRow p / 16 * 8 + siteCol p / 9
def clusterOfSite (p : Nat) : Nat := siteRow p / 16 * 72 + siteCol p
def plotOfCluster (cl : Nat) : Nat := cl / 72 * 8 + cl % 72 / 9
/-- The sixteen sites of a cluster. -/
def clusterSites (cl : Nat) : List Nat := (List.range 16).map (fun i => siteAt (cl / 72 * 16 + i) (cl % 72))
/-- The logical cores of a plot, by row then column. -/
def plotCores (p : Nat) : List Nat :=
  (List.range 128).map (fun i => coreAt (p / 8 * 16 + i / 8) (p % 8 * 8 + i % 8))
/-- The sites of a plot. -/
def plotSites (p : Nat) : List Nat :=
  (List.range 144).map (fun i => siteAt (p / 8 * 16 + i / 9) (p % 8 * 9 + i % 9))
/-- The clusters of a plot. -/
def plotClusters (p : Nat) : List Nat := (List.range 9).map (fun i => p / 8 * 72 + p % 8 * 9 + i)

/-! ## The logical map, by R14 and R538 -/

/-- Hole positions of group g of a row, ascending. -/
def groupHoles (s : State) (row g : Nat) : List Nat :=
  (List.range 9).filter (fun i => decide (siteAt row (9 * g + i) ∈ s.holes))

/-- The routing site of position i of group g of a row, by R538; a position that a pinned core holds keeps its site. -/
def routingSite (s : State) (c : Nat) : Nat :=
  let row := coreRow c
  let g := coreCol c / 8
  let i := coreCol c % 8
  match tblFind c s.pinned with
  | some p => p
  | none =>
    match groupHoles s row g with
    | [] => siteAt row (9 * g + i)
    | [h] => siteAt row (9 * g + (if i < h then i else i + 1))
    | hs => siteAt row (9 * g + (if i ∈ hs then i + 1 else i))

/-- The site that holds a logical core in service, by R14: none where its plot is disabled or the core is lost. -/
def siteOf (s : State) (c : Nat) : Option Nat :=
  if plotOfCore c ∈ s.disabled ∨ c ∈ s.lost then none else some (routingSite s c)

/-- The logical core a site holds. -/
def coreOfSite (s : State) (p : Nat) : Option Nat :=
  let g := siteCol p / 9
  (List.range 8).find? (fun i => decide (siteOf s (coreAt (siteRow p) (8 * g + i)) = some p)) |>.map
    (fun i => coreAt (siteRow p) (8 * g + i))

/-- The cluster that clocks a logical core. -/
def clusterOfCore (s : State) (c : Nat) : Nat := clusterOfSite (routingSite s c)

/-! ## Hedges, by R23 and R214 -/

/-- The plots of a rectangle. -/
def rectPlots (plot w h : Nat) : List Nat :=
  (List.range (w * h)).map (fun i => plot + i / w * 8 + i % w)

/-- The plots a Hedge number holds. -/
def hedgePlots (k : Hedge) : List Nat :=
  match k.state with
  | .unbound => []
  | _ => rectPlots k.plot k.width k.height

/-- The Hedge number that holds a plot. -/
def hedgeOfPlot (s : State) (p : Nat) : Option Nat :=
  (List.range 32).find? (fun h => decide (p ∈ hedgePlots (getHedge s h)))

def hedgeOfCore (s : State) (c : Nat) : Option Nat := hedgeOfPlot s (plotOfCore c)

/-- The state of a Hedge for the rules of R149, R155 and R158: one that is RETAINED stays so while a site shift holds it FROZEN (R214, R417). -/
def heldState (s : State) (h : Nat) : HState :=
  match tblFind h s.shifts with
  | some sh => if sh.resume = .retained then .retained else (getHedge s h).state
  | none => (getHedge s h).state

/-- The logical cores of a Hedge in core-index order: index hrow × 8W + hcol (R184). -/
def hedgeCores (k : Hedge) : List Nat :=
  match k.state with
  | .unbound => []
  | _ => (List.range (128 * k.width * k.height)).map (fun i =>
      coreAt (k.plot / 8 * 16 + i / (8 * k.width)) (k.plot % 8 * 8 + i % (8 * k.width)))

/-- The logical core at a core index of a Hedge. -/
def hedgeCoreAt (k : Hedge) (i : Nat) : Nat :=
  coreAt (k.plot / 8 * 16 + i / (8 * k.width)) (k.plot % 8 * 8 + i % (8 * k.width))

/-- The clusters of a Hedge. -/
def hedgeClusters (k : Hedge) : List Nat := (hedgePlots k).flatMap plotClusters

/-! ## Time -/

/-- Reference edges in a microsecond, a millisecond and a second: the reference runs at 100 MHz (R347). -/
def usEdges : Nat := 100
def msEdges : Nat := 100000
def secEdges : Nat := 100000000

/-- The frequency step code in force, by R365. -/
def stepCode (s : State) : Nat := getF s refPage Ref.step

/-! ## The grade (R2) -/

/-- The grade's fused maximum input, in W, and highest step code. -/
def fusedMax (s : State) : Nat := match s.fuses.grade with
  | 0 => 15500
  | 1 => 12500
  | _ => 9500

def fusedStep (s : State) : Nat := match s.fuses.grade with
  | 0 => 33
  | 1 => 30
  | _ => 26

/-! ## Status bits and their events, by R512 to R515 -/

/-- Marks the page for an EVENT where its enable bit and EVT_HOLD allow it (R514). -/
def noteRise (base enBit : Nat) (s : State) : State :=
  if (getF s base Hdr.ien).testBit enBit ∧ getF s base Hdr.evtHold = 0 ∧ base ∉ s.evtDue then
    { s with evtDue := s.evtDue ++ [base] } else s

/-- Sets bit `b` of BLK_ISR. -/
def setIsr (base b : Nat) (s : State) : State :=
  if (getF s base Hdr.isr).testBit b then s
  else noteRise base b (orF base Hdr.isr (2 ^ b) s)

/-- Sets bit `b` of BLK_ERR. -/
def setErrBit (base b : Nat) (s : State) : State :=
  if (getF s base Hdr.err).testBit b then s
  else noteRise base (16 + b) (orF base Hdr.err (2 ^ b) s)

/-- Writes the capture registers. -/
def captureErr (base addr info : Nat) (s : State) : State :=
  setF base Hdr.errInfo info (setF base Hdr.errAddrHi (addr / 2 ^ 32) (setF base Hdr.errAddrLo addr s))

/-- An error with the capture of R515: the first while BLK_ERR is zero. -/
def setErr (base b addr info : Nat) (s : State) : State :=
  setErrBit base b (if getF s base Hdr.err = 0 then captureErr base addr info s else s)

/-- An error whose own rule captures it each time (R88, R107). -/
def setErrOwn (base b addr info : Nat) (s : State) : State := setErrBit base b (captureErr base addr info s)

/-! ## The journal, by R435 and R436 -/

/-- A record into the RAM buffer of 512 records; past that, counted into one OVERFLOW record. -/
def journal (cls : Nat) (pg : Page) (code hedge info : Nat) (s : State) : State :=
  let rec' : JRec := ⟨getF s errPage Err.jrnlSeq, s.powerOn, s.bootNo, s.now - s.bootAt, cls, pageCode pg.ty, pg.inst, code, hedge, info⟩
  if s.jbuf.length < 512 then
    addF errPage Err.jrnlSeq 1 { s with jbuf := s.jbuf ++ [rec'] }
  else setErr errPage Err.eJrnlOverflow 0 0 { s with jover := s.jover + 1 }

/-- An event record of Privet's; the spec gives no code for an event outside BLK_ERR, so the code is a free value. -/
def journalEvent (pg : Page) (hedge info : Nat) (s : State) : State :=
  let d := draw s
  journal 3 pg (d.1 % 2 ^ 16) hedge info d.2

/-- An entry of the field defect log (R403): past 4,096 entries it is not written, and LOG_FULL is set and journalled. -/
def logDefect (kind cause source unit : Nat) (s : State) : State :=
  if s.dlog.length < 4096 then
    setF bupPage Bup.logEntries (s.dlog.length + 1) { s with dlog := s.dlog ++ [⟨kind, cause, source, unit, s.bootNo, s.powerOn⟩] }
  else
    journal 3 pgBup Bup.eLogFull 0xFF unit (setErr bupPage Bup.eLogFull 0 0 (setF bupPage Bup.logFull 1 s))

/-- Class numbers of R436. -/
def jCe : Nat := 0
def jUc : Nat := 1
def jFatal : Nat := 2
def jEvent : Nat := 3
def jReset : Nat := 4
def jOverflow : Nat := 5

/-! ## Errors by class, by R430 to R434 -/

/-- Plans a retirement of a site (R422), once. -/
def planRetire (site cause : Nat) (s : State) : State :=
  if site ∈ s.holes ∨ s.planned.any (fun e => e.1 == site) then s
  else setF bupPage Bup.pendingCnt (s.planned.length + 1) { s with planned := s.planned ++ [(site, cause)] }

/-- Edges of a list that lie within some edges of now. -/
def recent (s : State) (span : Nat) (l : List Nat) : List Nat := l.filter (fun t => decide (s.now < t + span))

/-- Charges an origin error to a site (R433): its 24 h count, the planned retirement at UC_DAY, and the immediate
retirement at the second error of one RUN_STEP. -/
def chargeUc (hedge : Option Nat) (site : Nat) (s : State) : State :=
  let times := recent s (86400 * secEdges) (tblGet [] s.siteUc site) ++ [s.now]
  let s : State := { s with siteUc := tblPut [] s.siteUc site times }
  let s := if getF s errPage Err.ucDay ≤ times.length then planRetire site 0xE3 s else s
  match hedge with
  | none => s
  | some h =>
    let k := getHedge s h
    match k.run with
    | none => s
    | some r =>
      let n := tblGet 0 r.charged site + 1
      let s := putHedge h { k with run := some { r with charged := tblPut 0 r.charged site n } } s
      if n = 2 ∧ site ∉ s.holes ∧ s.failed.any (fun e => e.1 == site) = false then { s with failed := s.failed ++ [(site, 0xE2)] } else s

/-- Charges a CE to a site (R433): the hour's count, and the planned retirement above CE_RETIRE. -/
def chargeCe (site : Nat) (s : State) : State :=
  let times := recent s (3600 * secEdges) (tblGet [] s.siteCe site) ++ [s.now]
  let s : State := { s with siteCe := tblPut [] s.siteCe site times }
  let lim := getF s errPage Err.ceRetire
  if lim ≠ 0 ∧ lim < times.length then planRetire site 0xE3 s else s

/-- A CE record of a page: the CEs since the last one, and the next second begins. -/
def ceRecord (pg : Page) (e : CeAgg) (s : State) : State :=
  journal jCe pg e.code 0xFF e.n { s with ceAgg := tblPut {} s.ceAgg pg.base ⟨max s.now 1, 0, 0⟩ }

/-- A corrected error: counted, journalled at most once a second for its block with the count, charged to its site. -/
def noteCe (pg : Page) (code : Nat) (site : Option Nat) (s : State) : State :=
  let s := addF errPage Err.ceCnt 1 s
  let e := tblGet {} s.ceAgg pg.base
  let e := { e with n := e.n + 1, code := code }
  let s := if e.at_ = 0 ∨ e.at_ + secEdges ≤ s.now then ceRecord pg e s else { s with ceAgg := tblPut {} s.ceAgg pg.base e }
  match site with
  | some p => chargeCe p s
  | none => s

/-- A corrected error that a bit of its page shows. -/
def reportCe (pg : Page) (bit : Nat) (site : Option Nat) (addr info : Nat) (s : State) : State :=
  noteCe pg bit site (setErr pg.base bit addr info s)

/-- An uncorrected error that ends one descriptor or one read (R430): counted, journalled, and charged to its site where it is an
origin error. The page's own bit is the caller's. -/
def reportUcRead (pg : Page) (bit : Nat) (hedge : Option Nat) (info : Nat) (site : Option Nat) (s : State) : State :=
  let s := addF errPage Err.ucCnt 1 s
  let s := journal jUc pg bit (hedge.getD 0xFF) info s
  match site with
  | some p => chargeUc hedge p s
  | none => s

/-- An uncorrected error against a Hedge (R430 to R432): as reportUcRead, and sent to the Fabric Engine where the Hedge is
RUNNING. -/
def reportUc (pg : Page) (bit : Nat) (hedge : Option Nat) (core : Nat) (site : Option Nat) (tpm : Bool) (s : State) : State :=
  let s := reportUcRead pg bit hedge core site s
  match hedge with
  | some h => if (getHedge s h).state = .running then { s with ucs := s.ucs ++ [⟨h, core, tpm⟩] } else s
  | none => s

/-- Marks a BLK_ERR bit that the next reset keeps (R345, R396, R427, R452, R481). -/
def keepErr (base b : Nat) (s : State) : State :=
  if base * 32 + b ∈ s.fresh then s else { s with fresh := s.fresh ++ [base * 32 + b] }

/-- A FATAL error (R434). The KIND 4 EVENT goes out with EVENT_SEND. -/
def reportFatal (cause : Nat) (s : State) : State :=
  let s := setF errPage Err.fatalCause cause (setF errPage Err.fatalBit 1 s)
  let s := keepErr errPage Err.eFatal (addF errPage Err.fatalCnt 1 (setErr errPage Err.eFatal 0 0 s))
  let s := journal jFatal pgErr cause 0xFF cause s
  { s with notices := s.notices ++ [.fatal cause] }

/-! ## Memory: bytes of the scratchpad and Mere apertures, by R502 -/

/-- What a byte nothing has written reads as. -/
def memDflt : Byte := 0

/-- Reads a byte. -/
def memByte (s : State) (a : Nat) : Byte := tblGet memDflt s.mem a

/-- Writes a byte, keeping the canonical form. -/
def memPut (m : List Host.Cell) (a : Nat) (b : Byte) : List Host.Cell := tblPut memDflt m a b

/-- Writes bytes from `a` up. -/
def memPutList (m : List Host.Cell) (a : Nat) : List Byte → List Host.Cell
  | [] => m
  | b :: t => memPutList (memPut m a b) (a + 1) t

/-- The `n` bytes from `a` up. -/
def memList (s : State) (a n : Nat) : List Byte := (List.range n).map (fun i => memByte s (a + i))

/-- A little-endian number of `n` bytes at `a`. -/
def memNat (s : State) (a n : Nat) : Nat := leNat (memList s a n)

/-- Base of a logical core's scratchpad (R139), its size, and the base of Mere (R202). -/
def spmBase (c : Nat) : Nat := c * 0x400000
def spmSize : Nat := 0x400000
def mereBase : Nat := 0x10000000000

/-- Damage units: a word of 8 bytes in a scratchpad (R143), a block of 64 bytes in Mere (R246). -/
def damageUnit (a : Nat) : Nat := if a < mereBase then a / 8 * 8 else a / 64 * 64

/-- Damaged units that overlap [a, a + n), with their state. -/
def damageIn (s : State) (a n : Nat) : List (Nat × Nat) :=
  s.damage.filter (fun e => decide (e.1 < a + n ∧ a < e.1 + (if e.1 < mereBase then 8 else 64)))

/-- Writes bytes; a write of a whole damaged unit clears its damage, a partial write leaves it (R144). -/
def memWrite (a : Nat) (bs : List Byte) (s : State) : State :=
  let n := bs.length
  let cleared := s.damage.filter (fun e =>
    let sz := if e.1 < mereBase then 8 else 64
    !(decide (a ≤ e.1 ∧ e.1 + sz ≤ a + n)))
  { s with mem := memPutList s.mem a bs, damage := cleared }

/-- Sets a range to zero with good check bits. -/
def memZero (lo hi : Nat) (s : State) : State :=
  { s with mem := tblDrop lo hi s.mem, damage := tblDrop lo hi s.damage }

/-- The byte of a repeated 8-byte pattern. -/
def patByte (pat i : Nat) : Byte := BitVec.ofNat 8 (pat / 2 ^ (8 * (i % 8)))

/-- Poisons a unit (R144, R246). -/
def poison (u : Nat) (s : State) : State := { s with damage := tblPut 0 s.damage u 3 }

/-- New damage in a unit: poison that is there stays, and a double error replaces a single one. -/
def damaged (u kind : Nat) (s : State) : State :=
  if tblGet 0 s.damage u < kind then { s with damage := tblPut 0 s.damage u kind } else s

/-- Corrects a unit. -/
def correct (u : Nat) (s : State) : State := { s with damage := tblErase u s.damage }

/-! ## Counter banks (R482 to R491) -/

/-- Base of counter bank j outside the cores (R518). -/
def bankPage (j : Nat) : Nat := colPage + 0x1000 * (1 + j)
/-- Page of a bank in the model's one numbering: cores 0 to 4,095, then Mere channels, ports, Transfer and Fabric Engine halves, and the Network Engine. -/
def bankBase (b : Nat) : Nat := if b < 4096 then corePageCnt b else bankPage (b - 4096)
/-- BANKTYPE and instance of the bank pages (R482, R518). -/
def bankInst (j : Nat) : Nat :=
  if j < 192 then 0x2000 + j else if j < 194 then 0x3000 + (j - 192) else if j < 196 then 0x4000 + (j - 194)
  else if j < 198 then 0x5000 + (j - 196) else 0x6000

def chanBank (ch : Nat) : Nat := 4096 + ch
def portBank (p : Nat) : Nat := 4096 + 192 + p
def teBank (half : Nat) : Nat := 4096 + 194 + half
def feBank (half : Nat) : Nat := 4096 + 196 + half
def neBank : Nat := 4096 + 198

def getBank (s : State) (b : Nat) : Bank := tblGet {} s.banks b
def putBank (b : Nat) (k : Bank) (s : State) : State := { s with banks := tblPut {} s.banks b k }

/-- F0: local cycles of the core's cluster or of the engine halves, or reference edges, since device reset. -/
def bankF0 (s : State) (b : Nat) : Nat :=
  if b < 4096 then ((((tblGet {} s.clus (clusterOfCore s b)).edges : Int) + (getBank s b).off) % ((2 ^ 48 : Nat) : Int)).toNat
  else if b < 4096 + 194 then (s.now - s.resetEdge) % 2 ^ 48
  else s.engCyc % 2 ^ 48

/-- Adds to fixed counter i. -/
def bankFix (b i n : Nat) (s : State) : State :=
  let k := getBank s b
  putBank b { k with fixed := tblPut 0 k.fixed i ((tblGet 0 k.fixed i + n) % 2 ^ 48) } s

/-- Adds to programmable counter i; a wrap sets its BLK_ISR bit (R488). -/
def bankProg (b i n : Nat) (s : State) : State :=
  let k := getBank s b
  let v := tblGet 0 k.prog i + n
  let s := putBank b { k with prog := tblPut 0 k.prog i (v % 2 ^ 48) } s
  if 2 ^ 48 ≤ v then setIsr (bankBase b) i s else s

/-- An event of a bank, n times: every enabled counter that names its code counts it (R485, R487). -/
def bankEv (b code n : Nat) (s : State) : State :=
  if n = 0 ∨ getF s (bankBase b) Cnt.en = 0 then s
  else (List.range 8).foldl (fun s i => if getF s (bankBase b) Cnt.sel i = code then bankProg b i n s else s) s

/-- An event counted in units of 64. -/
def bankUnits (b code n : Nat) (s : State) : State :=
  let k := getBank s b
  let t := tblGet 0 k.rest code + n
  bankEv b code (t / 64) (putBank b { k with rest := tblPut 0 k.rest code (t % 64) } s)

/-- Bytes that pass the point of a window (R491). -/
def bankBytes (b w n : Nat) (s : State) : State :=
  let k := getBank s b
  putBank b { k with cur := tblPut 0 k.cur w (tblGet 0 k.cur w + n) } s

/-- A core bank counts while its core is in RUN, DONE or FROZEN (R484). -/
def coreCounts (s : State) (c : Nat) : Bool :=
  match (getCore s c).mode with
  | .run => true
  | .done => true
  | .frozen => true
  | _ => false

def coreEv (c code n : Nat) (s : State) : State := if coreCounts s c then bankEv c code n s else s
def coreUnits (c code n : Nat) (s : State) : State := if coreCounts s c then bankUnits c code n s else s
def coreBytes (c w n : Nat) (s : State) : State := if coreCounts s c then bankBytes c w n s else s

/-- 64-byte granules that a range touches. -/
def granuleCount (a n : Nat) : Nat := if n = 0 then 0 else (a + n - 1) / 64 + 1 - a / 64

/-- A bank, its windows and the tag buffer of a core become zero; F0 starts again (R490). -/
def clearBank (c : Nat) (lost : Bool) (s : State) : State :=
  let off : Int := -((tblGet {} s.clus (clusterOfCore s c)).edges : Int)
  let s := putBank c { off := off, lost := lost } s
  resetRange (tagPage c + 0x44) (tagPage c + 0x1000) { s with tagged := tblErase c s.tagged }

/-! ## Instruction tags (R498 to R501) -/

/-- Writes an entry into the next slot of a core's tag buffer. -/
def tagWrite (c : Nat) (t : TagFlight) (flags ready start done' wb : Nat) (s : State) : State :=
  let n := getF s (tagPage c) Tag.next
  let info := t.pc + t.cls * 2 ^ 17 + t.op * 2 ^ 20 + flags
  let words := [t.at_ % 2 ^ 32, t.at_ / 2 ^ 32 % 2 ^ 16, info, ready, start, done', wb, t.entry]
  let s := words.zipIdx.foldl (fun s e => setF (tagPage c) Tag.entryWord e.1 s (8 * n + e.2)) s
  let s := if n = 63 then setF (tagPage c) Tag.wrapped 1 s else s
  setF (tagPage c) Tag.next ((n + 1) % 64) { s with tagged := tblErase c s.tagged }

/-- A stamp of an abandoned instruction: reached at some local cycle, or 0xFF_FFFF; which of them is free. -/
def abandonStamp (free i : Nat) : Nat := if (free / 2 ^ i) % 2 = 1 then 0xFFFFFF else free / 2 ^ (4 + 24 * i) % 2 ^ 24

/-- Tagged instructions of cores that stop are written at once with ABANDONED (R500). -/
def dropTags (l : List Nat) (s : State) : State :=
  l.foldl (fun s c => match tblFind c s.tagged with
    | none => s
    | some t => tagWrite c t (2 ^ 25 + 2 ^ 27) (abandonStamp t.free 0) (abandonStamp t.free 1) (abandonStamp t.free 2) 0xFFFFFF s) s

/-- An instruction has issued with tagging enabled (R498). The LFSR's polynomial is stated nowhere: its next value is free. -/
def tagIssue (c cls op at_ pc : Nat) (s : State) : State :=
  if getF s (tagPage c) Tag.en = 0 then s
  else
    let d := draw s
    let s := d.2
    if d.1 % 2 ^ getF s (tagPage c) Tag.tagN ≠ 0 then s
    else if (tblFind c s.tagged).isSome then addF (tagPage c) Tag.skip 1 s
    else
      let e := draw s
      { e.2 with tagged := tblInsert c ⟨at_ % 2 ^ 48, pc, cls, op, (getCore s c).entry, e.1⟩ s.tagged }

/-! ## Scratchpad reads under SECDED, by R143 and R144 -/

/-- One damaged word met by a read of a core's own units: a single-bit error is corrected and counted; an uncorrectable word is
poisoned and is UC against the core's Hedge. An origin error is charged to the core's site (R431). -/
def spmMeet (c : Nat) (unitRead : Bool) (e : Nat × Nat) (s : State) : State :=
  let off := e.1 - spmBase c
  if e.2 = 1 then
    reportCe (pgSpm c) Spm.eSpmCe (siteOf s c) off 0 (addF (spmPage c) Spm.ceCnt 1 (correct e.1 s))
  else
    let origin := if e.2 = 2 then siteOf s c else none
    let first := !((getF s (spmPage c) Hdr.err).testBit Spm.eSpmUc)
    let s := if e.2 = 2 then addF (spmPage c) Spm.ucCnt 1 (poison e.1 s) else s
    let s := if first then captureErr (spmPage c) off 0 s else s
    let s := setErrBit (spmPage c) Spm.eSpmUc s
    if unitRead then reportUc (pgSpm c) Spm.eSpmUc (hedgeOfCore s c) c origin false s
    else reportUcRead (pgSpm c) Spm.eSpmUc (hedgeOfCore s c) c origin s

/-- The outcome of a read over a list of damaged words: the state, and whether any was uncorrectable. -/
def spmMeetAll (c : Nat) (unitRead : Bool) : List (Nat × Nat) → State → Bool × State
  | [], s => (false, s)
  | e :: t, s =>
    let r := spmMeetAll c unitRead t (spmMeet c unitRead e s)
    (decide (e.2 ≠ 1) || r.1, r.2)

/-- A read of `n` bytes at scratchpad offset `off` by a unit of core `c`: the bytes, whether an uncorrectable word was met,
and the state. -/
def spmRead (c off n : Nat) (s : State) : List Byte × Bool × State :=
  let r := spmMeetAll c true (damageIn s (spmBase c + off) n) (coreEv c 0x18 (granuleCount off n) s)
  (memList r.2 (spmBase c + off) n, r.1, r.2)

/-- The reads that a write of part of a word makes (R143, R144): a single-bit error is corrected and counted; an uncorrectable word becomes poison, and the
bytes are merged into it. The write itself reports nothing of that (DEDUCED: the next read does). -/
def mergeReads (c a n : Nat) (s : State) : State :=
  ((damageIn s a n).filter (fun e => !decide (a ≤ e.1 ∧ e.1 + 8 ≤ a + n))).foldl (fun s e =>
    if e.2 = 1 then spmMeet c false e s else poison e.1 s) s

/-- A write to a core's scratchpad. -/
def spmWrite (c off : Nat) (bs : List Byte) (s : State) : State :=
  memWrite (spmBase c + off) bs (mergeReads c (spmBase c + off) bs.length (coreEv c 0x18 (granuleCount off bs.length) s))

/-! ## Clusters (R329, R351) -/

def getClus (s : State) (cl : Nat) : Cluster := tblGet {} s.clus cl
def putClus (cl : Nat) (c : Cluster) (s : State) : State := { s with clus := tblPut {} s.clus cl c }

/-- CLK_STAT.STATE codes: 0 PARK, 1 RUN, 2 GATED, 3 STANDBY. -/
def clkState (s : State) (cl : Nat) : Nat := getF s (clkPage cl) Clk.state

/-- SPR_STAT.STATE codes (R338). -/
def sprOff : Nat := 0
def sprRamp : Nat := 1
def sprActive : Nat := 2
def sprRetention : Nat := 3
def sprDark : Nat := 4
def sprRetired : Nat := 5

/-- A Spring state of R338. -/
def sprState (s : State) (cl : Nat) : Nat := getF s (sprPage cl) Spr.state

/-- A cluster is DARK or RETIRED. -/
def clusterGone (s : State) (cl : Nat) : Bool := sprState s cl == sprDark || sprState s cl == sprRetired

/-- Clusters of a Hedge that can run: neither DARK nor RETIRED nor held in PARK. A generator that relocks from PARK can. -/
def liveClusters (s : State) (k : Hedge) : List Nat :=
  (hedgeClusters k).filter (fun cl => clkState s cl != 0 || (tblGet {} s.clus cl).relock)

/-- Every cluster of a Hedge that can run is clocked. -/
def clocked (s : State) (k : Hedge) : Bool := (liveClusters s k).all (fun cl => clkState s cl == 1)

/-- Notes an activity of a cluster: its idle time starts again (R352). -/
def touch (cl : Nat) (s : State) : State :=
  { s with clus := tblPut {} s.clus cl { tblGet {} s.clus cl with busyAt := s.now } }

/-- An activity that needs a cluster's clock: a cluster that does not run is to wake (R330, R352). -/
def wakeCluster (cl : Nat) (s : State) : State :=
  if clkState s cl = 1 ∨ clkState s cl = 0 ∨ cl ∈ s.wakeReqs then s else { s with wakeReqs := s.wakeReqs ++ [cl] }

def wakeAll (l : List Nat) (s : State) : State := l.foldl (fun s cl => wakeCluster cl s) s

/-- The cluster of a logical core is gated or in retention: an access to its memories waits for the wake (R146). -/
def asleep (s : State) (c : Nat) : Bool := (siteOf s c).isSome && (clkState s (clusterOfCore s c) == 2 || clkState s (clusterOfCore s c) == 3)

/-! ## Stopping cores -/

/-- Applies an update to every listed core. -/
def onCores (l : List Nat) (f : Core → Core) (s : State) : State :=
  l.foldl (fun s c => putCore c (f (getCore s c)) s) s

/-- Cores that have just become IDLE (R437). -/
def markIdle (l : List Nat) (s : State) : State := { s with idleAt := l.foldl (fun t c => tblPut 0 t c s.now) s.idleAt }

/-- A site's test ends: it is no longer in TEST. -/
def endTest (p : Nat) (s : State) : State :=
  { s with tests := s.tests.map (fun t => { t with running := t.running.filter (· != p) }) }

/-- A field test on one of the cores yields: it is discarded and counted, and the core is IDLE (R440). -/
def yieldTests (l : List Nat) (s : State) : State :=
  l.foldl (fun s c =>
    if (getCore s c).mode = .test then
      addF ftePage Fte.yieldCnt 1 (endTest (routingSite s c) (markIdle [c] (putCore c { getCore s c with mode := .idle } s)))
    else s) s

/-- What a core keeps when its work is abandoned: registers, memories and descriptors stay, operations in flight go (R104). -/
def abandon (k : Core) : Core :=
  { k with ops := [], snaps := [], ramp := 0, tileWait := false, setq := [], arm := none, strs := [], loads := [], puts := [],
           refusals := 0, bars := [], barWait := none,
           ponds := k.ponds.map (fun e => (e.1, { e.2 with closeRd := none })) }

end Sys2Proof.Machine
end

