-- ==== Sys2Proof/Machine/Flags.lean ====
section
/-!
DEFINITION. Where the numeric flags of R60 are recorded: ARR_FLAGS for the arrays (R92) and VEC_FLAGS for the vector unit
(R136), both sticky, in the bit order of R60.
-/
namespace Sys2Proof.Machine

/-- ORs flags into ARR_FLAGS (R92). -/
def raiseArr (c fl : Nat) (s : State) : State := if fl = 0 then s else orF (arrPage c) Arr.flags fl s

/-- ORs flags into VEC_FLAGS (R115, R136). -/
def raiseVec (c fl : Nat) (s : State) : State := if fl = 0 then s else orF (vecPage c) Vec.flags fl s

/-- The flags of a list of results. -/
def flagsOf (l : List (Nat × Nat)) : Nat := l.foldl (fun a r => a ||| r.2) 0

end Sys2Proof.Machine
end

