-- ==== Sys2Proof/Machine/Operands.lean ====
section
/-!
DEFINITION. The operand fields of an instruction word: the layout of R106 for every class but ARR, and the ARR.MMA positions of
R86, which the other array instructions use by R87.
-/
namespace Sys2Proof.Machine

/-- Bits [lo + len − 1 : lo] of an instruction word. -/
def wf (w : IWord) (lo len : Nat) : Nat := bitsOf w.toNat lo len

/-! ## R106 -/
def fRd (w : IWord) : Nat := wf w 51 5
def fRa (w : IWord) : Nat := wf w 46 5
def fRb (w : IWord) : Nat := wf w 41 5
def fRc (w : IWord) : Nat := wf w 36 5
def fMod (w : IWord) : Nat := wf w 32 4
def fImm (w : IWord) : Nat := wf w 0 32
/-- IMM sign-extended, as a 64-bit word. -/
def fImmS (w : IWord) : Word64 := (BitVec.ofNat 32 (fImm w)).signExtend 64

/-- Field positions for the unused-field check. -/
def pRd : Nat × Nat := (51, 5)
def pRa : Nat × Nat := (46, 5)
def pRb : Nat × Nat := (41, 5)
def pRc : Nat × Nat := (36, 5)
def pMod : Nat × Nat := (32, 4)
def pImm : Nat × Nat := (0, 32)

/-- Every field an instruction does not use is zero (R106, cause 0x20; R86 and R87, cause 0x01). -/
def unusedZero (w : IWord) (used : List (Nat × Nat)) : Bool :=
  decide (used.foldl (fun a f => a + wf w f.1 f.2 * 2 ^ f.1) 0 = w.toNat)

/-! ## R86 -/
def aShape (w : IWord) : Nat := wf w 53 3
def aKsplit (w : IWord) : Nat := wf w 51 2
def aSub (w : IWord) : Nat := wf w 49 2
def aSlot (w : IWord) : Nat := wf w 47 2
def aMode (w : IWord) : Bool := wf w 46 1 == 1
def aAcc (w : IWord) : Bool := wf w 45 1 == 1
def aDrain (w : IWord) : Bool := wf w 44 1 == 1
def aAdesc (w : IWord) : Nat := wf w 40 4
def aBdesc (w : IWord) : Nat := wf w 36 4
def aBiasDesc (w : IWord) : Nat := wf w 32 4
def aBiasEn (w : IWord) : Bool := wf w 31 1 == 1
def aOdesc (w : IWord) : Nat := wf w 27 4
def aOfmt (w : IWord) : Nat := wf w 23 4
def aSat (w : IWord) : Bool := wf w 22 1 == 1
def aStat (w : IWord) : Nat := wf w 20 2
def aStatRow (w : IWord) : Nat := wf w 18 2
def aKreg (w : IWord) : Nat := wf w 13 5
def aDimReg (w : IWord) : Nat := wf w 8 5

/-- The fields an ARR.DRAIN and an ARR.CLR use, by R87. -/
def usedDrain : List (Nat × Nat) := [(53, 3), (51, 2), (49, 2), (47, 2), (27, 4), (23, 4), (22, 1), (20, 2), (18, 2), (8, 5)]
def usedClr : List (Nat × Nat) := [(53, 3), (49, 2), (47, 2), (45, 1), (8, 5)]

end Sys2Proof.Machine
end

