-- ==== Sys2Proof/Machine/CoreProg.lean ====
section
/-!
DEFINITION. How a core issues an instruction, by R99 to R109: the interlocks, the step to the next address with the loop stack,
program faults, and the damage that SECDED finds in the tile-program memory and the registers (R134, R138).
-/
namespace Sys2Proof.Machine

/-- The word of an outcome that goes on. -/
abbrev Next (s : State) : Host.Outcome State Fault Refusal := .next s

/-! ## Addresses and loops -/

/-- The end of the tile-program memory. -/
def tpmEnd : Nat := 0x20000

/-- A legal entry, branch or jump target (cause 0x24 of R107). -/
def goodTarget (a : Nat) : Bool := decide (0x200 ≤ a ∧ a < tpmEnd ∧ a % 8 = 0)

/-- Stepping to address `a`: at the end of the innermost body the loop goes back or ends, and an outer body that ends at the same
address follows (R109). -/
def loopStep (a : Nat) : List LoopLevel → Nat × List LoopLevel
  | [] => (a, [])
  | l :: t =>
    if l.stop = a then
      if 1 < l.left then (l.start, { l with left := l.left - 1 } :: t) else loopStep a t
    else (a, l :: t)

/-- The levels a taken branch to `a` leaves active: those whose body holds the target (R109). -/
def loopLeave (a : Nat) : List LoopLevel → List LoopLevel
  | [] => []
  | l :: t => if l.start ≤ a ∧ a < l.stop then l :: t else loopLeave a t

/-- The core after an instruction that falls through, one local cycle later. -/
def advance (k : Core) : Core :=
  let r := loopStep (k.pc + 8) k.loops
  { k with pc := r.1, loops := r.2, cyc := k.cyc + 1 }

/-- The core after a taken branch or jump: two idle local cycles more (R101). -/
def jump (target : Nat) (k : Core) : Core :=
  { k with pc := target, loops := loopLeave target k.loops, cyc := k.cyc + 3 }

/-- A result in a scalar register, readable `lat` local cycles from issue (R101). -/
def writeS (rd : Nat) (v : Word64) (lat : Nat) (k : Core) : Core :=
  let k := setSreg rd v k
  if rd = 0 then k else { k with ready := tblPut 0 k.ready rd (k.cyc + lat) }

/-- The outcome of an instruction: the core as it leaves it, in the state. -/
def retire (c : Nat) (k : Core) (s : State) : State := putCore c (advance k) s

/-! ## Faults and holds -/

/-- A program fault of the sequencer or a unit, by R107: `pc` is the address of the instruction it belongs to. -/
def coreFault (c pc cause : Nat) (s : State) : State :=
  setErrOwn (seqPage c) Seq.eProgramFault pc cause (dropTags [c] (putCore c { getCore s c with mode := .fault, cause := cause } s))

/-- An illegal array operation, by R88. -/
def arrIllegal (c pc cause : Nat) (s : State) : State :=
  setErrOwn (arrPage c) Arr.eIllegalOp pc cause (dropTags [c] (putCore c { getCore s c with mode := .fault, cause := cause } s))

/-- A local cycle in which the instruction is ready and not issued (R133). -/
def holdCycle (c : Nat) (s : State) : State :=
  let k := getCore s c
  putCore c { k with cyc := k.cyc + 1, hold := k.hold + 1 } s

/-! ## What an issue counts (R483, R485, R498) -/

/-- Lanes of a vector type in MOD, by R110. -/
def modLanes (m : Nat) : Nat :=
  match m with
  | 1 => 256
  | 2 => 256
  | 6 => 256
  | 3 => 128
  | 4 => 128
  | 5 => 64
  | 8 => 64
  | _ => 0

/-- The counts of one command of a core, from the state before to the state after: hold cycles always; where the instruction issued, the
instruction itself, its lanes, and its tag. -/
def counted (cls op c : Nat) (w : IWord) (s t : State) : State :=
  let k := getCore s c
  let k' := getCore t c
  let held := k'.hold - k.hold
  let t := coreEv c 0x1A held t
  let t := if (cls = 4 ∧ op = 3) ∨ (cls = 5 ∧ op = 5) then coreEv c 0x1C held t else t
  if k'.cyc + k.hold = k.cyc + k'.hold then t
  else
    let t := if coreCounts t c then bankFix c 1 1 t else t
    let t := if cls = 1 then coreUnits c 0x11 (if op = 0x1B then 0 else min k.vl (modLanes (fMod w))) (coreEv c 0x10 1 t) else t
    tagIssue c cls op (k.cyc + held) k.pc t

/-- The outcome of an instruction of class `cls` and opcode `op`, with its counts. -/
def Issued (cls op : Nat) (c : CoreId) (w : IWord) (s : State) (r : Host.Outcome State Fault Refusal) : Host.Outcome State Fault Refusal :=
  match r with
  | .next t => .next (counted cls op c.val w s t)
  | o => o

/-! ## Issue -/

/-- Result latency of an ALU operation and of MUL (R101). -/
def aluLat : Nat := 1
def mulLat : Nat := 3

/-- Registers an asynchronous instruction will write: they are held until it completes (R101). A later instruction that reads one waits, and so does one that writes
it, so that the last write in program order stands whatever the timing (R130). -/
def heldRegs (k : Core) : List Nat :=
  k.setq.map (fun o => o.rd) ++ k.ponds.filterMap (fun e => e.2.closeRd)

/-- Waits for the registers read: the local cycle at which all hold their final values. -/
def waitReads (reads : List Nat) (k : Core) : Core :=
  let t := reads.foldl (fun t r => max t (tblGet 0 k.ready r)) k.cyc
  { k with cyc := t, hold := k.hold + (t - k.cyc) }

/-- Damaged registers among those read: corrected or uncorrectable (R134). The page's rules name no address and no detail for REG_CE and REG_UC, and both capture
registers take zero (DESIGN CHOICE). -/
def meetRegs (c : Nat) : List Nat → State → Bool × State
  | [], s => (false, s)
  | r :: t, s =>
    let k := getCore s c
    match tblGet 0 k.regBad r with
    | 0 => meetRegs c t s
    | 1 => meetRegs c t (reportCe (pgSeq c) Seq.eRegCe (siteOf s c) 0 0 (putCore c { k with regBad := tblErase r k.regBad } s))
    | _ =>
      (true, reportUc (pgSeq c) Seq.eRegUc (hedgeOfCore s c) c (siteOf s c) false (setErr (seqPage c) Seq.eRegUc 0 0 s))

/-- The tile-program word at the pc: a single-bit error is corrected, a double-bit error is UC and its program is rewritten by
the replay (R134, R138). TPM_CE and TPM_UC capture the word's address in the tile-program memory, the space of R107 (DESIGN CHOICE). -/
def meetTpm (c : Nat) (s : State) : Bool × State :=
  let k := getCore s c
  match tblGet 0 k.tpmBad (k.pc / 8) with
  | 0 => (false, s)
  | 1 => (false, reportCe (pgSeq c) Seq.eTpmCe (siteOf s c) k.pc 0 (putCore c { k with tpmBad := tblErase (k.pc / 8) k.tpmBad } s))
  | _ => (true, reportUc (pgSeq c) Seq.eTpmUc (hedgeOfCore s c) c (siteOf s c) true (setErr (seqPage c) Seq.eTpmUc k.pc 0 s))

/-- The core may issue: it is in RUN and in no barrier (R104, R128). -/
def canIssue (k : Core) : Bool := k.mode == .run && k.barWait.isNone

/-- Issues one instruction of core `c` (R101). Past the memory's end no instruction stands: the fault records the address the pc has reached, 0x2_0000 (DESIGN CHOICE).
`used` are the fields it uses, `reads` the registers it reads (0 to 31 scalar, 32 to
63 vector), and `rd` the scalar register it writes, 0 where none. A core that is not issuing leaves the state as it is; `body` is what the instruction does once its operands are
final, on the core at its issue cycle. -/
def issue (c : Nat) (used : List (Nat × Nat)) (reads : List Nat) (w : IWord) (body : Core → State → State) (s : State)
    (rd : Nat := 0) : State :=
  let k := getCore s c
  if canIssue k = false then s
  else if tpmEnd ≤ k.pc then coreFault c k.pc 0x24 s
  else if (rd :: reads).any (fun r => r ≠ 0 && decide (r ∈ heldRegs k)) then holdCycle c s
  else
    let m := meetTpm c s
    if m.1 then m.2
    else if unusedZero w used = false then coreFault c k.pc 0x20 m.2
    else
      let r := meetRegs c reads m.2
      if r.1 then r.2 else body (waitReads reads (getCore r.2 c)) r.2

/-! ## Words that name no instruction (R85, R105 to R107) -/

/-- The opcodes of a class, from the least to the greatest: ARR, VEC, SET, GTH, STR, PND, SYN, CTL. -/
def classOpcodes (cls : Nat) : Nat × Nat :=
  match cls with
  | 0 => (1, 5)
  | 1 => (1, 0x1B)
  | 2 => (1, 1)
  | 3 => (1, 3)
  | 4 => (1, 4)
  | 5 => (1, 6)
  | 6 => (1, 3)
  | _ => (0, 0x1B)

/-- CLASS [63:61] and OPCODE [60:56] of a word name an instruction. -/
def namesInstr (w : Nat) : Bool :=
  let r := classOpcodes (bitsOf w 61 3)
  decide (r.1 ≤ bitsOf w 56 5 ∧ bitsOf w 56 5 ≤ r.2)

/-- What an issuing core does at a word that is no command of the table: past the memory's end it faults, a reserved opcode of the
arrays is an illegal operation, and any other reserved class or opcode a program fault (R88, R107). A word that names an instruction waits for its command. -/
def issueReserved (c : Nat) (s : State) : State :=
  let k := getCore s c
  let w := (tblGet 0 k.tpm (k.pc / 8)).toNat
  if canIssue k = false then s
  else if tpmEnd ≤ k.pc then coreFault c k.pc 0x24 s
  else if namesInstr w then s
  else
    let m := meetTpm c s
    if m.1 then m.2
    else if bitsOf w 61 3 = 0 then arrIllegal c k.pc 0x01 m.2
    else coreFault c k.pc 0x20 m.2

end Sys2Proof.Machine
end

