-- ==== Sys2Proof/Machine/Generators.lean ====
section
/-!
DEFINITION. Stream generators, by R116 to R118: the captured descriptor, its checks, element addresses and LFSR values.
-/
namespace Sys2Proof.Machine

/-- A captured generator descriptor as a list: BASE, ESIZE, MODE, FMT, COUNT0 to COUNT2, STRIDE0 to STRIDE2, SEED (R137). -/
def captureGen (s : State) (c g : Nat) : List Nat :=
  let p := vecPage c
  [getF s p Vec.genBase g, getF s p Vec.genEsize g, getF s p Vec.genMode g, getF s p Vec.genFmt g,
   getF s p Vec.genCount0 g, getF s p Vec.genCount1 g, getF s p Vec.genCount2 g,
   getF s p Vec.genStride0 g, getF s p Vec.genStride1 g, getF s p Vec.genStride2 g,
   getF s p Vec.genSeedLo g + 2 ^ 32 * getF s p Vec.genSeedHi g]

def gBase (g : List Nat) : Nat := g.getD 0 0
def gEsize (g : List Nat) : Nat := g.getD 1 0
def gMode (g : List Nat) : Nat := g.getD 2 0
def gFmt (g : List Nat) : Nat := g.getD 3 0
def gCount (g : List Nat) (i : Nat) : Nat := g.getD (4 + i) 0
def gStride (g : List Nat) (i : Nat) : Int := signedOf 23 (g.getD (7 + i) 0)
def gSeed (g : List Nat) : Nat := g.getD 10 0
/-- Bytes of an element. -/
def gSize (g : List Nat) : Nat := 2 ^ gEsize g

/-- Address of element n (R117). -/
def genAddr (g : List Nat) (n : Nat) : Int :=
  let i0 := n % gCount g 0
  let i1 := n / gCount g 0 % gCount g 1
  let i2 := n / (gCount g 0 * gCount g 1) % gCount g 2
  (gBase g : Int) + i0 * gStride g 0 + i1 * gStride g 1 + i2 * gStride g 2

/-- The extreme offsets of one dimension: 0 and (count − 1) × stride. -/
def dimSpan (count : Nat) (stride : Int) : Int × Int :=
  let e := ((count : Int) - 1) * stride
  if e < 0 then (e, 0) else (0, e)

/-- The address-mode checks of R117: no zero count, every element of one pass inside the scratchpad, every address a multiple of
min(size, 64). The pattern's extremes are at its corners, and every address is aligned exactly when the base and each used
stride are. -/
def genAddrOk (g : List Nat) : Bool :=
  let cs := [gCount g 0, gCount g 1, gCount g 2]
  let sp := (List.range 3).map (fun i => dimSpan (gCount g i) (gStride g i))
  let lo := (gBase g : Int) + (sp.map Prod.fst).foldl (· + ·) 0
  let hi := (gBase g : Int) + (sp.map Prod.snd).foldl (· + ·) 0 + gSize g
  let al : Int := ((min (gSize g) 64 : Nat) : Int)
  cs.all (fun n => n != 0) && decide (0 ≤ lo) && decide (hi ≤ spmSize) && decide ((gBase g : Int) % al = 0) &&
    (List.range 3).all (fun i => gCount g i == 1 || decide (gStride g i % al = 0))

/-- The LFSR-mode checks of R118. -/
def genLfsrOk (g : List Nat) : Bool :=
  decide (gSeed g ≠ 0) && decide (gFmt g ≤ 6) &&
    match fmtOf (gFmt g) with
    | some f => decide (fmtBytes f ≤ gSize g)
    | none => false

/-- The capture check of R117 and R118. -/
def genOk (g : List Nat) : Bool :=
  if gMode g = 0 then genAddrOk g else if gMode g = 1 then genLfsrOk g else false

/-- One step of the LFSR of R118. -/
def lfsrStep (s : Nat) : Nat := if s % 2 = 1 then (s / 2) ^^^ 0xD800000000000000 else s / 2

/-- `n` words of LFSR output from a state. -/
def lfsrWords : Nat → Nat → List Nat
  | 0, _ => []
  | n + 1, s => s :: lfsrWords n (lfsrStep s)

/-- Byte `i` of an element stream forced to finite values of the format (R118). -/
def forceByte (f : Nat) (i : Nat) (b : Byte) : Byte :=
  let cut : Bool := match fmtOf f with
    | some .e4m3 | some .e5m2 => true
    | some .bf16 | some .fp16 => i % 2 == 1
    | some .fp32 => i % 4 == 3
    | _ => false
  if cut then b &&& 0xBF else b

/-- The first `n` bytes of a generator's LFSR output, forced. -/
def lfsrBytes (g : List Nat) (n : Nat) : List Byte :=
  let raw := (lfsrWords (n / 8 + 1) (gSeed g)).flatMap (fun w => leBytes 8 w)
  ((raw.take n).zipIdx).map (fun e => forceByte (gFmt g) e.2 e.1)

/-- The bytes of elements [from, from + n) of a generator: read from the scratchpad in address mode, generated in LFSR mode. The
Bool is an uncorrectable read. -/
def genBytes (c : Nat) (g : List Nat) (first n : Nat) (s : State) : List Byte × Bool × State :=
  if gMode g = 1 then ((lfsrBytes g ((first + n) * gSize g)).drop (first * gSize g), false, s)
  else
    (List.range n).foldl (fun (acc : List Byte × Bool × State) i =>
      let r := spmRead c (genAddr g (first + i)).toNat (gSize g) acc.2.2
      (acc.1 ++ r.1, acc.2.1 || r.2.1, r.2.2)) ([], false, s)

/-- The scratchpad offset of a byte of a generator's element stream. -/
def genOffset (g : List Nat) (pos : Nat) : Nat := (genAddr g (pos / gSize g)).toNat + pos % gSize g

/-- The bytes of a stream from position `pos` on, gathered into runs of consecutive offsets. -/
def genRuns (g : List Nat) : Nat → List Byte → List (Nat × List Byte)
  | _, [] => []
  | pos, b :: t =>
    match genRuns g (pos + 1) t with
    | (a, bs) :: l => if genOffset g pos + 1 = a then (genOffset g pos, b :: bs) :: l else (genOffset g pos, [b]) :: (a, bs) :: l
    | [] => [(genOffset g pos, [b])]

/-- Writes bytes to consecutive byte positions of a generator's element stream, from position `pos` of the stream; bytes that stand side by side go in one
write. -/
def genWrite (c : Nat) (g : List Nat) (pos : Nat) (bs : List Byte) (s : State) : State :=
  (genRuns g pos bs).foldl (fun s e => spmWrite c e.1 e.2 s) s

end Sys2Proof.Machine
end

