-- ==== Sys2Proof/Machine/ArrayOps.lean ====
section
/-!
DEFINITION. Array instructions at issue, by R62 to R70 and R85 to R88: shapes, captured descriptors, the issue checks with their
cause codes, and the tile instructions ARR.DRAIN, ARR.CLR, ARR.WAIT and ARR.LDD.
-/
namespace Sys2Proof.Machine

/-! ## Shapes, by R62 and R63 -/

/-- Rows and columns of a shape. -/
def shapeDim : Nat → Nat × Nat
  | 0 => (32, 8)
  | 1 => (64, 8)
  | 2 => (32, 16)
  | 3 => (128, 8)
  | 4 => (64, 16)
  | _ => (32, 32)

/-- Result members of a shape. -/
def shapeMembers (shape sub : Nat) : List Nat :=
  match shape with
  | 0 => [sub]
  | 1 | 2 => [sub, sub + 1]
  | _ => [0, 1, 2, 3]

/-- Parts of a K split: 1, 2 or 4. -/
def splitParts : Nat → Nat
  | 1 => 2
  | 2 => 4
  | _ => 1

/-- Every member sub-array of an operation, K-split parts included. -/
def opMembers (shape ksplit sub : Nat) : List Nat :=
  match ksplit, shape with
  | 0, _ => shapeMembers shape sub
  | 1, 0 => [sub, sub + 1]
  | _, _ => [0, 1, 2, 3]

/-- SHAPE and KSPLIT name a legal combination (cause 0x02). -/
def shapeLegal (shape ksplit : Nat) : Bool :=
  decide (shape ≤ 5) && (ksplit == 0 || (ksplit == 1 && decide (shape ≤ 2)) || (ksplit == 2 && shape == 0))

/-- SUB is allowed for the shape and split (cause 0x03). -/
def subLegal (shape ksplit sub : Nat) : Bool :=
  match ksplit, shape with
  | 0, 0 => true
  | 0, 1 | 0, 2 | 1, 0 => sub % 2 == 0
  | _, _ => sub == 0

/-- Where an output element lives: the index among the result members, and the cell's row and column (R62). -/
def place (shape i j : Nat) : Nat × Nat × Nat :=
  match shape with
  | 0 => (0, i, j)
  | 1 => (i / 32, i % 32, j)
  | 2 => (j / 8, i, j % 8)
  | 3 => (i / 32, i % 32, j)
  | 4 => (2 * (i / 32) + j / 8, i % 32, j % 8)
  | _ => (j / 8, i, j % 8)

/-- The sub-array, row and column of an output element of an operation. -/
def cellOf (shape sub i j : Nat) : Nat × Nat × Nat :=
  let p := place shape i j
  ((shapeMembers shape sub).getD p.1 0, p.2.1, p.2.2)

/-- Output elements of an m × n operation in drain order: members ascending, then rows, then columns (R82). -/
def drainOrder (shape m n : Nat) : List (Nat × Nat) :=
  (List.range 4).flatMap (fun q =>
    (List.range m).flatMap (fun i => (List.range n).filterMap (fun j =>
      if (place shape i j).1 = q then some (i, j) else none)))

/-! ## Slots -/

/-- Slots an operation holds in each member: SLOT, and SLOT + 1 in PT mode (R69). -/
def opSlots (o : ArrOp) : List Nat :=
  (opMembers o.shape o.ksplit o.sub).flatMap (fun q =>
    if o.pt then [4 * q + o.slot, 4 * q + o.slot + 1] else [4 * q + o.slot])

/-- A PT operation that has started holds its stacks in a slot: slot SLOT + 1 of each member (R69, R93). -/
def holdsStacks (k : Core) (i : Nat) : Bool :=
  k.ops.any (fun o => o.pt && o.stage != .queued && i % 4 == o.slot + 1 && decide (i / 4 ∈ opMembers o.shape o.ksplit o.sub))

/-- What ARR_SLOT_STATE shows of a slot. -/
def shownTag (k : Core) (i : Nat) : SlotTag := if holdsStacks k i then .stacks else (tblGet {} k.slots i).tag

/-- A slot is held by an operation that has not released it (R69). -/
def slotBusy (k : Core) (i : Nat) : Bool := k.ops.any (fun o => decide (i ∈ opSlots o))

/-- The operation works on integers: INT8 inputs (R31). -/
def opInt (o : ArrOp) : Bool := o.afmt == 6

/-- The tag slot `i` has once every operation in the queue has ended: its last holder's mode in a result slot, floating
elsewhere (R63, R69, R70). -/
def tagAfter (k : Core) (i : Nat) : SlotTag :=
  let d := (tblGet {} k.slots i).tag
  k.ops.foldl (fun t o =>
    if i ∈ opSlots o then
      (if i % 4 = o.slot ∧ i / 4 ∈ shapeMembers o.shape o.sub then (if opInt o then SlotTag.int else .float) else .float)
    else t) d

/-! ## Captured descriptors, by R68 and R95 -/

/-- BASE, SRC, LAYOUT, STRIDE, SCALE_BASE, SCALE_STRIDE of descriptor d, and its FMT. -/
def captureDesc (s : State) (c d : Nat) : List Nat × Nat :=
  let p := arrPage c
  ([getF s p Arr.descBase d, getF s p Arr.descSrc d, getF s p Arr.descLayout d, getF s p Arr.descStride d,
    getF s p Arr.descScaleBase d, getF s p Arr.descScaleStride d], getF s p Arr.descFmt d)

def dBase (l : List Nat) : Nat := l.getD 0 0
def dSrc (l : List Nat) : Nat := l.getD 1 0
def dLayout (l : List Nat) : Nat := l.getD 2 0
def dStride (l : List Nat) : Nat := l.getD 3 0
def dScaleBase (l : List Nat) : Nat := l.getD 4 0
def dScaleStride (l : List Nat) : Nat := l.getD 5 0

/-- ⌈a ÷ b⌉. -/
def ceilDiv (a b : Nat) : Nat := (a + b - 1) / b

/-- The end of a strided access of `outer` runs of `inner` bytes; nothing is touched when either is zero. -/
def spanEnd (base stride outer inner : Nat) : Nat :=
  if outer = 0 ∨ inner = 0 then 0 else base + (outer - 1) * stride + inner

/-- The bytes of a format's element width times a count, FP4 by whole blocks of 32 (R34, R65). -/
def kBytes (f : Fmt) (k : Nat) : Nat :=
  match f with
  | .fp4 => 16 * ceilDiv k 32
  | _ => k * fmtBytes f

/-- Every address an A or B operand can touch lies in the scratchpad (R68). -/
def operandFits (d : List Nat) (f : Fmt) (rows k : Nat) : Bool :=
  if dSrc d ≠ 0 then true
  else
    let e := if dLayout d = 1 then spanEnd (dBase d) (dStride d) k (rows * fmtBytes f)
      else spanEnd (dBase d) (dStride d) rows (kBytes f k)
    let sc := match f with
      | .fp4 => spanEnd (dScaleBase d) (dScaleStride d) rows (ceilDiv k 32)
      | _ => 0
    decide (e ≤ spmSize) && decide (sc ≤ spmSize)

/-- The same for an output, with the row-statistics words when STAT asks for them (R65, R83). -/
def outputFits (d : List Nat) (f : Fmt) (m n stat : Nat) : Bool :=
  let e := if dLayout d = 0 then spanEnd (dBase d) (dStride d) m (n * fmtBytes f)
    else spanEnd (dBase d) (dStride d) n (m * fmtBytes f)
  decide (e ≤ spmSize) && (stat == 0 || decide (spanEnd (dScaleBase d) 0 1 (8 * m) ≤ spmSize))

/-- The same for a bias. -/
def biasFits (d : List Nat) (f : Fmt) (m n : Nat) : Bool :=
  let b := fmtBytes f
  let e := match dLayout d with
    | 0 => spanEnd (dBase d) (dStride d) m (n * b)
    | 1 => spanEnd (dBase d) (dStride d) n (m * b)
    | 2 => spanEnd (dBase d) 0 1 (m * b)
    | _ => spanEnd (dBase d) 0 1 (n * b)
  decide (e ≤ spmSize)

/-- The generator of an LFSR operand meets R118: LFSR mode, the operand's format, and ESIZE by its width. -/
def lfsrSuits (g : List Nat) (f : Fmt) (fmt : Nat) : Bool :=
  gMode g == 1 && genLfsrOk g && gFmt g == fmt && gSize g == fmtBytes f

/-- Layout and source of an operand (cause 0x06): A takes IK or KI and any source but 0b11, B takes JK and scratchpad or LFSR; FP4
has no KI layout and no gather; the gather unit alone ignores LAYOUT (R65, R67, R121). -/
def operandLegal (isA : Bool) (d gen : List Nat) (f : Fmt) (fmt : Nat) : Bool :=
  match dSrc d with
  | 0 => dLayout d == 0 || (isA && dLayout d == 1 && f != .fp4)
  | 1 => isA && f != .fp4
  | 2 => lfsrSuits gen f fmt && (dLayout d == 0 || (isA && dLayout d == 1 && f != .fp4))
  | _ => false

/-- An output or bias descriptor reads and writes the scratchpad only; outputs have two layouts and biases four (R65, R67). -/
def outputLegal (d : List Nat) : Bool := dSrc d == 0 && decide (dLayout d ≤ 1)
def biasLegal (d : List Nat) : Bool := dSrc d == 0

/-- The first failing check's code: checks are listed in the order of R88, so the lowest code is recorded. -/
def firstCause : List (Nat × Bool) → Option Nat
  | [] => none
  | (code, ok) :: t => if ok then firstCause t else some code

/-! ## ARR.MMA -/

/-- The operation an ARR.MMA names, captured at issue (R68). -/
def captureMma (s : State) (c : Nat) (k : Core) (w : IWord) : ArrOp :=
  let a := captureDesc s c (aAdesc w)
  let b := captureDesc s c (aBdesc w)
  let bi := captureDesc s c (aBiasDesc w)
  let od := captureDesc s c (aOdesc w)
  let dim := (sreg k (aDimReg w)).toNat
  { shape := aShape w, ksplit := aKsplit w, sub := aSub w, slot := aSlot w, pt := aMode w, acc := aAcc w, drain := aDrain w,
    biasEn := aBiasEn w, ofmt := aOfmt w, sat := aSat w, stat := aStat w, statRow := aStatRow w,
    k := (sreg k (aKreg w)).toNat % 2 ^ 32, m := dim % 2 ^ 16, n := dim / 2 ^ 16 % 2 ^ 16,
    afmt := a.2, bfmt := b.2, biasFmt := bi.2, adesc := a.1, bdesc := b.1, biasDesc := bi.1, odesc := od.1,
    agen := captureGen s c (dBase a.1 % 16), bgen := captureGen s c (dBase b.1 % 16), rows := [] }

/-- K above the limit of R47: SO mode in floating arithmetic. -/
def kTooLarge (o : ArrOp) : Bool := !o.pt && !opInt o && decide (32768 < o.k)

/-- The issue checks of R88 in code order. OFMT names no reserved code even where nothing drains (R30); its role is checked where it is used (DEDUCED). -/
def mmaCause (k : Core) (o : ArrOp) (reservedZero : Bool) : Option Nat :=
  let dim := shapeDim o.shape
  let res := (shapeMembers o.shape o.sub).map (fun q => 4 * q + o.slot)
  let int := opInt o
  match fmtOf o.afmt, fmtOf o.bfmt with
  | some fa, some fb =>
    firstCause [
      (0x01, reservedZero),
      (0x02, shapeLegal o.shape o.ksplit),
      (0x03, subLegal o.shape o.ksplit o.sub),
      (0x04, !(o.pt && o.slot % 2 == 1)),
      (0x05, fmtPair fa fb &&
        (!o.biasEn || match fmtOf o.biasFmt with | some f => fmtBias int f | none => false) &&
        (match fmtOf o.ofmt with | some f => !o.drain || fmtOutput int f | none => false)),
      (0x06, operandLegal true o.adesc o.agen fa o.afmt && operandLegal false o.bdesc o.bgen fb o.bfmt &&
        (!o.biasEn || biasLegal o.biasDesc) && (!(o.drain || o.stat != 0) || outputLegal o.odesc)),
      (0x07, decide (o.m ≤ dim.1) && decide (o.n ≤ dim.2)),
      (0x08, !kTooLarge o),
      (0x09, o.m == 0 || o.n == 0 ||
        (operandFits o.adesc fa o.m o.k && operandFits o.bdesc fb o.n o.k &&
          (!o.biasEn || match fmtOf o.biasFmt with | some f => biasFits o.biasDesc f o.m o.n | none => true) &&
          (!o.drain || match fmtOf o.ofmt with | some f => outputFits o.odesc f o.m o.n o.stat | none => true))),
      (0x0A, !(o.acc && (o.biasEn || res.any (fun i => tagAfter k i != (if int then SlotTag.int else .float))))),
      (0x0B, o.stat != 3 && (o.stat == 0 || (o.drain && decide (32 * o.statRow + dim.1 ≤ 128))))]
  | _, _ =>
    firstCause [
      (0x01, reservedZero),
      (0x02, shapeLegal o.shape o.ksplit),
      (0x03, subLegal o.shape o.ksplit o.sub),
      (0x04, !(o.pt && o.slot % 2 == 1)),
      (0x05, false)]

/-! ## The gather list, by R121 -/

/-- The row addresses of `n` indices taken from an armed list from its next one: an address, 2^22 for the zero row, or the fault
of the first index that has one. The Bool is an uncorrectable read of the list. -/
def takeRows (c : Nat) (g : GatherArm) (n : Nat) (s : State) : (List Nat × Option Nat) × Bool × State :=
  let r := genBytes c g.gen g.taken n s
  let idx := (chunks 4 n r.1).map leNat
  let rows := idx.map (fun x =>
    if x = 0xFFFFFFFF then Sum.inl spmSize
    else if g.limit ≤ x then Sum.inr 0x28
    else if spmSize < g.base + x * g.stride + g.bytes then Sum.inr 0x23
    else Sum.inl (g.base + x * g.stride))
  let fault := rows.findSome? (fun e => match e with | .inr cause => some cause | .inl _ => none)
  ((rows.filterMap (fun e => match e with | .inl a => some a | .inr _ => none), fault), r.2.1, r.2.2)

/-- Indices an armed list still holds: one pass of an address pattern without limit of its own wraps, so a list in address mode is
exhausted after COUNT0 × COUNT1 × COUNT2 indices, and an LFSR list never is (R117, R121). -/
def listLeft (g : GatherArm) : Option Nat :=
  if gMode g.gen = 1 then none else some (gCount g.gen 0 * gCount g.gen 1 * gCount g.gen 2 - g.taken)

/-- A consumer takes `n` indices of the armed list: the cause of a program fault, or the rows. A fault of a row the list still
holds comes before the list's end (R107). -/
def consumeRows (c : Nat) (k : Core) (n : Nat) (s : State) : Option Nat × List Nat × Option GatherArm × Bool × State :=
  match k.arm with
  | none => (if n = 0 then none else some 0x29, [], none, false, s)
  | some g =>
    let got := match listLeft g with
      | some l => min l n
      | none => n
    let r := takeRows c g got s
    let fault := match r.1.2 with
      | some cause => some cause
      | none => if got < n then some 0x29 else none
    (fault, r.1.1, some { g with taken := g.taken + n }, r.2.1, r.2.2)

/-- Queues an operation, or counts a null operation (R64, R76). -/
def queueOp (c : Nat) (k : Core) (o : ArrOp) (s : State) : State :=
  if o.m = 0 ∨ o.n = 0 then retire c k (addF (arrPage c) Arr.nullOps 1 s)
  else retire c { k with ops := k.ops ++ [o] } s

/-- Operations in the queue (R64): those whose folding has not completed. -/
def queueDepth (k : Core) : Nat := (k.ops.filter (fun o => o.stage != .folded)).length

/-- An ARR.MMA that reads rows from the gather unit takes its indices when it issues, one for each active row (R121). -/
def issueGathered (c : Nat) (k : Core) (o : ArrOp) (s : State) : State :=
  match consumeRows c k (if o.n = 0 then 0 else o.m) s with
  | (some cause, _, _, _, s) => coreFault c k.pc cause s
  | (none, rows, arm, bad, s) =>
    let f := (fmtOf o.afmt).getD .int8
    let bytes := (k.arm.map (fun g => g.bytes)).getD 0
    if o.m ≠ 0 ∧ o.n ≠ 0 ∧ bytes < o.k * fmtBytes f then coreFault c k.pc 0x2A s
    else if bad then s
    else queueOp c { k with arm := arm } { o with rows := rows } (coreEv c 0x14 rows.length (addF (vecPage c) Vec.gthRows rows.length s))

def execArrMma (c : CoreId) (w : IWord) (s : State) : Host.Outcome State Fault Refusal :=
  Issued 0 0x01 c w s (Next (issue c [(0, 56)] [aKreg w, aDimReg w] w (fun k s =>
    let o := captureMma s c k w
    match mmaCause k o (wf w 0 8 == 0) with
    | some cause => arrIllegal c k.pc cause s
    | none =>
      if 8 ≤ queueDepth k then holdCycle c s
      else if dSrc o.adesc = 1 then issueGathered c k o s
      else queueOp c k o s) s))

/-! ## ARR.DRAIN and ARR.CLR -/

/-- A DRAIN or CLR that meets a busy slot waits: one event counted, and every local cycle of the wait (R71). -/
def waitTile (c : Nat) (s : State) : State :=
  let k := getCore s c
  let s := if k.tileWait then s else addF (arrPage c) Arr.tileStalls 1 s
  holdCycle c (putCore c { k with tileWait := true } (coreEv c 0x08 1 (addF (arrPage c) Arr.tileStallCyc 1 s)))

/-- Values of the active elements of a tile in drain order. -/
def tileCells (k : Core) (shape sub slot m n : Nat) : List (Nat × Nat × Bool × Int) :=
  (drainOrder shape m n).map (fun e =>
    let p := cellOf shape sub e.1 e.2
    let sl := tblGet {} k.slots (4 * p.1 + slot)
    (e.1, e.2, sl.tag == .int, tblGet 0 sl.cells (9 * p.2.1 + p.2.2)))

/-- The damage SECDED finds when slots are read: a single-bit error corrected, a double-bit error UC (R97). -/
def meetSlots (c : Nat) : List Nat → State → State
  | [], s => s
  | i :: t, s =>
    let k := getCore s c
    match tblGet 0 k.slotBad i with
    | 0 => meetSlots c t s
    | 1 => meetSlots c t (reportCe (pgArr c) Arr.eAccCe (siteOf s c) 0 0 (putCore c { k with slotBad := tblErase i k.slotBad } s))
    | _ => meetSlots c t (reportUc (pgArr c) Arr.eAccUc (hedgeOfCore s c) c (siteOf s c) false (setErr (arrPage c) Arr.eAccUc 0 0 s))

/-- The issue checks of an ARR.DRAIN, in code order. -/
def drainCause (s : State) (c : Nat) (k : Core) (w : IWord) : Option Nat :=
  let shape := aShape w
  let dim := (sreg k (aDimReg w)).toNat
  let m := dim % 2 ^ 16
  let n := dim / 2 ^ 16 % 2 ^ 16
  let sd := shapeDim shape
  let od := (captureDesc s c (aOdesc w)).1
  let slots := (shapeMembers shape (aSub w)).map (fun q => 4 * q + aSlot w)
  firstCause [
    (0x01, unusedZero w usedDrain),
    (0x02, shapeLegal shape (aKsplit w)),
    (0x03, subLegal shape (aKsplit w) (aSub w)),
    (0x05, match fmtOf (aOfmt w) with | some f => slots.all (fun i => fmtOutput (tagAfter k i == .int) f) | none => false),
    (0x06, outputLegal od),
    (0x07, decide (m ≤ sd.1) && decide (n ≤ sd.2)),
    (0x09, match fmtOf (aOfmt w) with | some f => m == 0 || n == 0 || outputFits od f m n (aStat w) | none => true),
    (0x0B, aStat w != 3 && (aStat w == 0 || decide (32 * aStatRow w + sd.1 ≤ 128)))]

/-- The snapshot an ARR.DRAIN takes. -/
def drainSnap (s : State) (c : Nat) (k : Core) (w : IWord) : Snapshot :=
  let shape := aShape w
  let dim := (sreg k (aDimReg w)).toNat
  ⟨aOfmt w, aSat w, aStat w, aStatRow w, (shapeDim shape).1, (captureDesc s c (aOdesc w)).1,
    (shapeMembers shape (aSub w)).map (fun q => 4 * q + aSlot w), tileCells k shape (aSub w) (aSlot w) (dim % 2 ^ 16) (dim / 2 ^ 16 % 2 ^ 16), false⟩

def execArrDrain (c : CoreId) (w : IWord) (s : State) : Host.Outcome State Fault Refusal :=
  Issued 0 0x02 c w s (Next (issue c [(0, 56)] [aDimReg w] w (fun k s =>
    let slots := (shapeMembers (aShape w) (aSub w)).map (fun q => 4 * q + aSlot w)
    match drainCause s c k w with
    | some x => arrIllegal c k.pc x s
    | none =>
      if slots.any (slotBusy k) then waitTile c s
      else
        let s := meetSlots c slots s
        let k' := getCore s c
        retire c { k with slotBad := k'.slotBad, tileWait := false, snaps := k.snaps ++ [drainSnap s c k w] } s) s))

/-- An m × n operation of a shape writes every cell of its slot in sub-array q. -/
def coversSlot (shape sub q m n : Nat) : Bool :=
  ((drainOrder shape m n).filter (fun e => (cellOf shape sub e.1 e.2).1 == q)).length == 256

/-- Sets a slot's tag: a change clears every cell (R70). -/
def retag (t : SlotTag) (sl : Slot) : Slot := if sl.tag = t then sl else ⟨t, []⟩

/-- Sets the active cells of one sub-array's slot, and the checksum cells of its active rows, to zero. -/
def clearCells (shape sub q m n : Nat) (sl : Slot) : Slot :=
  let cells := (drainOrder shape m n).foldl (fun t e =>
    let p := cellOf shape sub e.1 e.2
    if p.1 = q then tblErase (9 * p.2.1 + 8) (tblErase (9 * p.2.1 + p.2.2) t) else t) sl.cells
  { sl with cells := cells }

/-- The issue checks of an ARR.CLR, in code order. -/
def clrCause (k : Core) (w : IWord) : Option Nat :=
  let dim := (sreg k (aDimReg w)).toNat
  let sd := shapeDim (aShape w)
  firstCause [
    (0x01, unusedZero w usedClr),
    (0x02, shapeLegal (aShape w) 0),
    (0x03, subLegal (aShape w) 0 (aSub w)),
    (0x07, decide (dim % 2 ^ 16 ≤ sd.1) && decide (dim / 2 ^ 16 % 2 ^ 16 ≤ sd.2))]

/-- ARR.CLR (R87). With m or n of zero it still sets the slots' tag, and ARR_NULL_OPS counts queued operations only (DESIGN CHOICE: R76 speaks of operations). -/
def execArrClr (c : CoreId) (w : IWord) (s : State) : Host.Outcome State Fault Refusal :=
  Issued 0 0x03 c w s (Next (issue c [(0, 56)] [aDimReg w] w (fun k s =>
    let shape := aShape w
    let dim := (sreg k (aDimReg w)).toNat
    let mem := shapeMembers shape (aSub w)
    match clrCause k w with
    | some x => arrIllegal c k.pc x s
    | none =>
      if mem.any (fun q => slotBusy k (4 * q + aSlot w)) then waitTile c s
      else
        let slots := mem.foldl (fun t q =>
          let i := 4 * q + aSlot w
          tblPut {} t i (clearCells shape (aSub w) q (dim % 2 ^ 16) (dim / 2 ^ 16 % 2 ^ 16) (retag (if aAcc w then .int else .float) (tblGet {} t i)))) k.slots
        let tag : SlotTag := if aAcc w then .int else .float
        let whole := (mem.map (fun q => (q, 4 * q + aSlot w))).filter (fun e =>
          (tblGet {} k.slots e.2).tag != tag || coversSlot shape (aSub w) e.1 (dim % 2 ^ 16) (dim / 2 ^ 16 % 2 ^ 16))
        retire c { k with tileWait := false, slots := slots, slotBad := whole.foldl (fun t e => tblErase e.2 t) k.slotBad } s) s))

/-! ## ARR.WAIT and ARR.LDD -/

/-- Every drain of the slots in the mask has been written. -/
def drainsDone (k : Core) (inMask : Nat → Bool) : Bool := !k.snaps.any (fun d => d.slots.any inMask)

def execArrWait (c : CoreId) (w : IWord) (s : State) : Host.Outcome State Fault Refusal :=
  Issued 0 0x04 c w s (Next (issue c [(0, 56)] [] w (fun k s =>
    if unusedZero w [(0, 17)] = false then arrIllegal c k.pc 0x01 s
    else
      let inMask := fun i => (wf w 0 16).testBit i
      let slotsOk := (List.range 16).all (fun i => !inMask i || !slotBusy k i) && drainsDone k inMask
      let allOk := wf w 16 1 == 0 || (k.ops.isEmpty && k.snaps.isEmpty)
      if slotsOk && allOk then retire c k s else holdCycle c s) s))

/-- Words 0 and 1, and 2 and 3, of an array descriptor (R87, R95). -/
def loadArrDesc (c d : Nat) (lo hi : Nat) (s : State) : State :=
  let p := arrPage c
  let s := setF p Arr.descBase (bitsOf lo 0 22) s d
  let s := setF p Arr.descSrc (bitsOf lo 22 2) s d
  let s := setF p Arr.descFmt (bitsOf lo 24 4) s d
  let s := setF p Arr.descLayout (bitsOf lo 28 2) s d
  let s := setF p Arr.descStride (bitsOf lo 32 22) s d
  let s := setF p Arr.descScaleBase (bitsOf hi 0 22) s d
  setF p Arr.descScaleStride (bitsOf hi 32 22) s d

def execArrLdd (c : CoreId) (w : IWord) (s : State) : Host.Outcome State Fault Refusal :=
  Issued 0 0x05 c w s (Next (issue c [(0, 56)] [aKreg w, aDimReg w] w (fun k s =>
    if unusedZero w [(40, 4), (13, 5), (8, 5)] = false then arrIllegal c k.pc 0x01 s
    else retire c k (loadArrDesc c (aAdesc w) (sreg k (aKreg w)).toNat (sreg k (aDimReg w)).toNat s)) s))

end Sys2Proof.Machine
end

