-- ==== Sys2Proof/Machine/ArrayRun.lean ====
section
/-!
DEFINITION. Array operations in flight, by R64 to R84: streaming, folding, the checksum comparison, the drain path and the
activity ramp.
-/
namespace Sys2Proof.Machine

/-! ## Operand capture (R65 to R67, R103, R118)

An operation reads its operands while it streams. The model takes all of them when it starts streaming, one of the moments
R103 allows. -/

/-- Reads one element code at a scratchpad offset. -/
def codeAt (s : State) (c a n : Nat) : Nat := memNat s (spmBase c + a) n

/-- FP4 element k of a row that starts at `a`: two elements per byte, the even one low (R34). -/
def fp4At (s : State) (c a k : Nat) : Nat := (memByte s (spmBase c + a + k / 2)).toNat / 2 ^ (4 * (k % 2)) % 16

/-- The codes of LFSR stream values (R118): values of `n` bytes, FP4 two to a byte. -/
def lfsrCodes (g : List Nat) (f : Fmt) (n : Nat) : List Nat :=
  match f with
  | .fp4 => (lfsrBytes g (ceilDiv n 2)).flatMap (fun b => [b.toNat % 16, b.toNat / 16]) |>.take n
  | _ => (chunks (fmtBytes f) n (lfsrBytes g (n * fmtBytes f))).map leNat

/-- The codes of one operand, row by row (columns for B): `rows` runs of K. -/
def operandCodes (s : State) (c : Nat) (d gen : List Nat) (f : Fmt) (gathered : List Nat) (rows k : Nat) : List (List Nat) :=
  match dSrc d with
  | 1 => gathered.map (fun a => (List.range k).map (fun e =>
      if a = spmSize then 0 else codeAt s c (a + e * fmtBytes f) (fmtBytes f)))
  | 2 => chunks k rows (lfsrCodes gen f (rows * k))
  | _ => (List.range rows).map (fun i => (List.range k).map (fun e =>
      match f with
      | .fp4 => fp4At s c (dBase d + i * dStride d) e
      | _ => if dLayout d = 1 then codeAt s c (dBase d + e * dStride d + i * fmtBytes f) (fmtBytes f)
             else codeAt s c (dBase d + i * dStride d + e * fmtBytes f) (fmtBytes f)))

/-- The FP4 scale bytes of one operand, one per block of 32; 127 from an LFSR source (R34, R118). -/
def scaleCodes (s : State) (c : Nat) (d : List Nat) (rows k : Nat) : List (List Nat) :=
  (List.range rows).map (fun i => (List.range (ceilDiv k 32)).map (fun b =>
    if dSrc d = 2 then 127 else codeAt s c (dScaleBase d + i * dScaleStride d + b) 1))

/-- The bias code of output element (i, j). -/
def biasCode (s : State) (c : Nat) (d : List Nat) (f : Fmt) (i j : Nat) : Nat :=
  let b := fmtBytes f
  let a := match dLayout d with
    | 0 => i * dStride d + j * b
    | 1 => j * dStride d + i * b
    | 2 => i * b
    | _ => j * b
  codeAt s c (dBase d + a) b

/-- The scratchpad ranges an operation reads, for SECDED. -/
def readRanges (o : ArrOp) : List (Nat × Nat) :=
  let fa := (fmtOf o.afmt).getD .int8
  let fb := (fmtOf o.bfmt).getD .int8
  let side := fun (d : List Nat) (f : Fmt) (rows : Nat) =>
    if dSrc d ≠ 0 then []
    else if dLayout d = 1 then (List.range o.k).map (fun e => (dBase d + e * dStride d, rows * fmtBytes f))
    else (List.range rows).map (fun i => (dBase d + i * dStride d, kBytes f o.k)) ++
      (match f with
       | .fp4 => (List.range rows).map (fun i => (dScaleBase d + i * dScaleStride d, ceilDiv o.k 32))
       | _ => [])
  let bias :=
    if o.biasEn then
      let f := (fmtOf o.biasFmt).getD .fp32
      let d := o.biasDesc
      match dLayout d with
      | 0 => (List.range o.m).map (fun i => (dBase d + i * dStride d, o.n * fmtBytes f))
      | 1 => (List.range o.n).map (fun j => (dBase d + j * dStride d, o.m * fmtBytes f))
      | 2 => [(dBase d, o.m * fmtBytes f)]
      | _ => [(dBase d, o.n * fmtBytes f)]
    else []
  side o.adesc fa o.m ++ side o.bdesc fb o.n ++ bias ++ (o.rows.filter (fun a => a != spmSize)).map (fun a => (a, o.k * fmtBytes fa))

/-- Meets the damage of several ranges. -/
def meetRanges (c : Nat) : List (Nat × Nat) → State → State
  | [], s => s
  | r :: t, s => meetRanges c t (spmMeetAll c true (damageIn s (spmBase c + r.1) r.2) s).2

/-- The operation with its operands taken; one of K = 0 streams nothing (R76). -/
def captureOperands (s : State) (c : Nat) (o : ArrOp) : ArrOp :=
  let fa := (fmtOf o.afmt).getD .int8
  let fb := (fmtOf o.bfmt).getD .int8
  let bias := if o.biasEn then
      (List.range o.m).flatMap (fun i => (List.range o.n).map (fun j =>
        biasCode s c o.biasDesc ((fmtOf o.biasFmt).getD .fp32) i j))
    else []
  { o with
    stage := if o.k = 0 then .streamed else .streaming
    a := operandCodes s c o.adesc o.agen fa o.rows o.m o.k
    b := operandCodes s c o.bdesc o.bgen fb [] o.n o.k
    ascale := if fa = .fp4 then scaleCodes s c o.adesc o.m o.k else []
    bscale := if fb = .fp4 then scaleCodes s c o.bdesc o.n o.k else []
    bias := bias }

/-! ## Streaming (R64, R71, R74) -/

/-- Two lists of slots or members meet. -/
def meets (a b : List Nat) : Bool := a.any (fun x => decide (x ∈ b))

/-- Members are free of earlier queued work: every operation issued before it on a shared member has streamed (R64). -/
def membersFree (k : Core) (i : Nat) (o : ArrOp) : Bool :=
  (k.ops.take i).all (fun p => p.stage != .queued || !meets (opMembers p.shape p.ksplit p.sub) (opMembers o.shape o.ksplit o.sub))

/-- Slots are free or chained: an earlier holder of a shared slot and this one both carry ACC (R71). -/
def slotsFree (k : Core) (i : Nat) (o : ArrOp) : Bool :=
  (k.ops.take i).all (fun p => (p.acc && o.acc) || !meets (opSlots p) (opSlots o))

/-- Replaces operation `i`. -/
def putOp (i : Nat) (o : ArrOp) (k : Core) : Core := { k with ops := k.ops.set i o }

/-- Earlier operations on the members of a starting one have ended their streams. -/
def endStreams (i : Nat) (o : ArrOp) (k : Core) : Core :=
  { k with ops := k.ops.zipIdx.map (fun e =>
      if e.2 < i ∧ e.1.stage = .streaming ∧ meets (opMembers e.1.shape e.1.ksplit e.1.sub) (opMembers o.shape o.ksplit o.sub) = true
      then { e.1 with stage := .streamed } else e.1) }

/-- A tile that an earlier operation still holds counts one event of ARR_TILE_STALLS, whether the operation waits or is chained (R71). -/
def countConflict (c i : Nat) (k : Core) (o : ArrOp) (s : State) : State :=
  if !o.stalled && (k.ops.take i).any (fun p => meets (opSlots p) (opSlots o)) then addF (arrPage c) Arr.tileStalls 1 s else s

/-- ARR_STREAM_START: a queued operation starts streaming once its members and its slots allow; a conflict on a tile is counted once
as an event and in every local cycle it waits (R71). -/
def streamStart (c i : Nat) (parityBad : Bool) (s : State) : State :=
  let k := getCore s c
  match k.ops[i]? with
  | none => s
  | some o =>
    if o.stage ≠ .queued ∨ k.mode ≠ .run ∨ membersFree k i o = false then s
    else if slotsFree k i o = false then
      putCore c (putOp i { o with stalled := true } k) (coreEv c 0x08 1 (addF (arrPage c) Arr.tileStallCyc 1 (countConflict c i k o s)))
    else
      let s := countConflict c i k o s
      let s := meetRanges c (readRanges o) s
      let s := if parityBad then
          reportUc (pgArr c) Arr.eOperandParity (hedgeOfCore s c) c (siteOf s c) false (setErr (arrPage c) Arr.eOperandParity 0 0 s)
        else s
      let k := getCore s c
      putCore c (putOp i (captureOperands s c o) (endStreams i o k)) s

def execArrStreamStart (c : CoreId) (i : Fin 8) (parityBad : Bool) (s : State) : Host.Outcome State Fault Refusal :=
  Next (streamStart c i parityBad s)

/-- ARRAY_RAMP_STEP, by R74: up one eighth while an operation streams, down one eighth when none streams and none is queued. -/
def execArrayRampStep (c : CoreId) (s : State) : Host.Outcome State Fault Refusal :=
  let k := getCore s c
  let streaming := k.ops.any (fun o => o.stage == .streaming)
  let queued := k.ops.any (fun o => o.stage == .queued)
  Next (if streaming then putCore c { k with ramp := min 8 (k.ramp + 1) } s
    else if queued then s
    else putCore c { k with ramp := k.ramp - 1 } s)

/-! ## Folding (R42 to R51, R57, R70, R76 to R78) -/

/-- An FP4 element's value under its block scale (R34). -/
def fp4Num (code scale : Nat) : Num :=
  if scale = 0xFF then .nan
  else match fdecode (fspec .fp4) code with
    | .fin s m e => .fin s m (e + (scale : Int) - 127)
    | x => x

/-- Values of one row of an operand. -/
def rowNums (f : Fmt) (codes scales : List Nat) : List Num :=
  codes.zipIdx.map (fun e =>
    match f with
    | .fp4 => fp4Num e.1 (scales.getD (e.2 / 32) 127)
    | .int8 => numOfInt (signedOf 8 e.1)
    | _ => fdecode (fspec f) e.1)

/-- A short last group: its missing products count as +0 (R38). -/
def padGroup (f : Fmt) (g : List (Num × Num)) : List (Num × Num) :=
  if g.length < groupSize f then g ++ [(.fin false 0 0, .fin false 0 0)] else g

/-- A value rounded into DA48 toward +infinity, for Y of R78. -/
def daRoundUp (x : Num) : Nat :=
  match x with
  | .fin false m e =>
    let c := magCode ceilShift (fspec .da48) m e
    if c ≤ (fspec .da48).max then c else 0x7FF000000000
  | .fin true _ _ => 0
  | .inf _ => 0x7FF000000000
  | .nan => daNan

/-- How values enter DA48 and add there: to nearest, or toward +infinity for Y of R78. -/
structure Rounding where
  enter : Num → Nat × Nat
  add   : Adder

def nearest : Rounding := ⟨daRound, daAdd⟩
def upward : Rounding := ⟨fun x => (daRoundUp x, 0), upAdd⟩

/-- The group codes of one part, rounded into DA48, with their flags. -/
def groupCodes (rnd : Rounding) (f : Fmt) (ps : List (Num × Num)) : List Nat × Nat :=
  let gs := (chunks (groupSize f) ps.length ps).map (fun g =>
    let x := groupSum (padGroup f g)
    let r := rnd.enter x.1
    (r.1, x.2 ||| r.2))
  (gs.map Prod.fst, flagsOf gs)

/-- One output element in floating mode: every part accumulates its groups in the operation's mode from its own start, then
the parts combine (R42 to R46). K = 0 leaves the initial value (R57). -/
def foldFloat (rnd : Rounding) (o : ArrOp) (f : Fmt) (init : Nat) (ps : List (Num × Num)) : Nat × Nat :=
  if ps.isEmpty then (init, flagEmpty)
  else
    let n := splitParts o.ksplit
    let parts := (List.range n).map (fun r =>
      let g := groupCodes rnd f (if n = 1 then ps else partOf n r ps)
      let top := if r = 0 then init else 0
      let acc := if o.pt then ptAccum rnd.add top g.1 else soAccum rnd.add (twoLane f) top g.1
      (acc.1, g.2 ||| acc.2))
    combineParts rnd.add parts

/-- The exact integer product sum of one group. -/
def intGroup (g : List (Num × Num)) : Int := g.foldl (fun a p => a + numToInt p.1 * numToInt p.2) 0

/-- One output element in integer mode (R51). -/
def foldInt (o : ArrOp) (init : Int) (ps : List (Num × Num)) : Int × Nat :=
  if ps.isEmpty then (init, flagEmpty)
  else
    let n := splitParts o.ksplit
    let parts := (List.range n).map (fun r =>
      let q := if n = 1 then ps else partOf n r ps
      ((chunks 4 q.length q).map intGroup).foldl intAddF (if r = 0 then init else 0, 0))
    intCombine parts

/-- The initial value of an output element, as a cell, with the flag of an integer bias of −2^47 (R51, R56, R70). -/
def initCell (k : Core) (o : ArrOp) (i j : Nat) : Int × Nat :=
  if o.acc then
    let p := cellOf o.shape o.sub i j
    (tblGet 0 (tblGet {} k.slots (4 * p.1 + o.slot)).cells (9 * p.2.1 + p.2.2), 0)
  else if o.biasEn then
    let code := o.bias.getD (i * o.n + j) 0
    match (fmtOf o.biasFmt).getD .fp32 with
    | .int32 => (signedOf 32 code, 0)
    | .int48 => intSat (signedOf 48 code)
    | f => ((daOfFmt f code : Nat), 0)
  else (0, 0)

/-- |x| of a value. -/
def numAbs : Num → Num
  | .nan => .nan
  | .inf _ => .inf false
  | .fin _ m e => .fin false m e

/-- The magnitude of a DA48 code. -/
def daAbs (c : Nat) : Nat := if numIsNan (daVal c) then daNan else c % 2 ^ 47

/-- Per row of a result member, the exact column sums the checksum cells multiply by: Σ B(k, j) and Σ |B(k, j)| over the member's
active columns (R78). -/
def columnSums (bs : List (List Num)) (k : Nat) : List Num × List Num :=
  let col := fun e => bs.map (fun b => b.getD e (.fin false 0 0))
  ((List.range k).map (fun e => (numSum (col e)).1), (List.range k).map (fun e => (numSum ((col e).map numAbs)).1))

/-- X and Y of one row in floating mode: both in the operation's mode, order and gang split, Y with every rounding toward +infinity (R78). -/
def checkFloat (o : ArrOp) (f : Fmt) (arow bsum babs : List Num) (inits : List Nat) : Nat × Nat :=
  let x0 := (inits.foldl daAddF (0, 0)).1
  let y0 := ((inits.map daAbs).foldl (addBy upAdd) (0, 0)).1
  ((foldFloat nearest o f x0 (arow.zip bsum)).1, (foldFloat upward o f y0 ((arow.map numAbs).zip babs)).1)

/-- X of one row in integer mode: exact (R78). -/
def checkInt (arow bsum : List Num) (inits : List Int) : Int :=
  (arow.zip bsum).foldl (fun a p => a + numToInt p.1 * numToInt p.2) (inits.foldl (· + ·) 0)

/-- All results of an operation: every output element's cell and flags, by (i, j). -/
def foldResults (k : Core) (o : ArrOp) : List (Nat × Nat × Int × Nat) :=
  let fa := (fmtOf o.afmt).getD .int8
  let fb := (fmtOf o.bfmt).getD .int8
  let an := (o.a.zipIdx).map (fun e => rowNums fa e.1 (o.ascale.getD e.2 []))
  let bn := (o.b.zipIdx).map (fun e => rowNums fb e.1 (o.bscale.getD e.2 []))
  (List.range o.m).flatMap (fun i => (List.range o.n).map (fun j =>
    let ps := (an.getD i []).zip (bn.getD j [])
    let c0 := initCell k o i j
    if opInt o then
      let r := foldInt o c0.1 ps
      (i, j, r.1, r.2 ||| c0.2)
    else
      let r := foldFloat nearest o fa c0.1.toNat ps
      (i, j, (r.1 : Int), r.2)))

/-- Rows (member, row, i) of an operation, with the columns each member holds. -/
def checkRows (o : ArrOp) : List (Nat × Nat × Nat × List Nat) :=
  (shapeMembers o.shape o.sub).flatMap (fun q =>
    (List.range o.m).filterMap (fun i =>
      let cols := (List.range o.n).filter (fun j => (cellOf o.shape o.sub i j).1 == q)
      match cols with
      | [] => none
      | j :: _ => some (q, (cellOf o.shape o.sub i j).2.1, i, cols)))

/-- X, Y and the skip of every checksum row (R78, R80). -/
def foldChecks (k : Core) (o : ArrOp) (rs : List (Nat × Nat × Int × Nat)) : List (Nat × Int × Nat × Bool) :=
  let fa := (fmtOf o.afmt).getD .int8
  let fb := (fmtOf o.bfmt).getD .int8
  let an := (o.a.zipIdx).map (fun e => rowNums fa e.1 (o.ascale.getD e.2 []))
  let bn := (o.b.zipIdx).map (fun e => rowNums fb e.1 (o.bscale.getD e.2 []))
  (checkRows o).map (fun row =>
    let q := row.1
    let i := row.2.2.1
    let cols := row.2.2.2
    let sums := columnSums (cols.map (fun j => bn.getD j [])) o.k
    let fl := (rs.filter (fun r => r.1 == i && decide (r.2.1 ∈ cols))).foldl (fun a r => a ||| r.2.2.2) 0
    let skip : Bool := fl &&& (flagOverflow ||| flagSaturate) != 0
    let key := 32 * q + row.2.1
    if opInt o then
      (key, checkInt (an.getD i []) sums.1 (cols.map (fun j => (initCell k o i j).1)), 0, skip)
    else
      let r := checkFloat o fa (an.getD i []) sums.1 sums.2 (cols.map (fun j => (initCell k o i j).1.toNat))
      (key, (r.1 : Int), r.2, skip))

/-- Writes the results into the slots (R63, R69, R70): result members take their cells and checksum cells and the operation's
tag; every other slot of the operation reads +0 with floating tag. A slot written whole holds no damage. -/
def storeResults (o : ArrOp) (rs : List (Nat × Nat × Int × Nat)) (xs : List (Nat × Int × Nat × Bool)) (k : Core) : Core :=
  let tag := if opInt o then SlotTag.int else .float
  let res := shapeMembers o.shape o.sub
  let others := (opSlots o).filter (fun i => !(decide (i / 4 ∈ res) && i % 4 == o.slot))
  let slots := others.foldl (fun t i => tblErase i t) k.slots
  let slots := res.foldl (fun t q => tblPut {} t (4 * q + o.slot) (retag tag (tblGet {} t (4 * q + o.slot)))) slots
  let put := fun (t : Tbl Slot) (q key : Nat) (v : Int) =>
    let sl := tblGet {} t (4 * q + o.slot)
    tblPut {} t (4 * q + o.slot) { sl with cells := tblPut 0 sl.cells key v }
  let slots := rs.foldl (fun t r =>
    let p := cellOf o.shape o.sub r.1 r.2.1
    put t p.1 (9 * p.2.1 + p.2.2) r.2.2.1) slots
  let slots := xs.foldl (fun t x => put t (x.1 / 32) (9 * (x.1 % 32) + 8) x.2.1) slots
  let whole := res.filter (fun q => coversSlot o.shape o.sub q o.m o.n)
  { k with slots := slots, slotBad := (others ++ whole.map (fun q => 4 * q + o.slot)).foldl (fun t i => tblErase i t) k.slotBad }

/-- The product event of an operand format (R485). -/
def productEvent (o : ArrOp) : Nat :=
  match o.afmt with
  | 0 => 0x01
  | 1 => 0x02
  | 2 => 0x02
  | 6 => 0x03
  | 5 => 0x05
  | _ => 0x04

/-- ARR_FOLD_COMPLETE (R72 order 5): the operation's results reach its tile, and its accumulation flags are raised. It needs the
operations before it on its slots to have released them. -/
def foldComplete (c i : Nat) (s : State) : State :=
  let k := getCore s c
  match k.ops[i]? with
  | none => s
  | some o =>
    let ready : Bool := (o.stage == .streaming || o.stage == .streamed) &&
      (k.ops.take i).all (fun p => !meets (opSlots p) (opSlots o))
    if ready = false then s
    else
      let s := if o.acc then meetSlots c (opSlots o) s else s
      let k := getCore s c
      let rs := foldResults k o
      let xs := foldChecks k o rs
      let fl := rs.foldl (fun a r => a ||| r.2.2.2) 0
      let o := { o with
        stage := .folded
        xs := xs.foldl (fun t x => tblPut 0 t x.1 x.2.1) []
        ys := xs.foldl (fun t x => tblPut 0 t x.1 x.2.2.1) []
        skips := (xs.filter (fun x => x.2.2.2)).map Prod.fst }
      raiseArr c fl (coreUnits c (productEvent o) (o.m * o.n * o.k) (putCore c (putOp i o (storeResults o rs xs k)) s))

def execArrFoldComplete (c : CoreId) (i : Fin 8) (s : State) : Host.Outcome State Fault Refusal := Next (foldComplete c i s)

/-! ## The checksum comparison (R79 to R81) -/

/-- ⌈log2 n⌉ for n ≥ 1. -/
def ceilLog2 (n : Nat) : Nat := bitLen (n - 1)

/-- β of R79: the multiplier of R48 for the mode and K. -/
def checkBeta (pt : Bool) (k : Nat) : Nat :=
  if k = 0 then 0
  else if pt then (if k ≤ 4194304 then ceilLog2 (ceilDiv k 4) + 2 else 22 + ceilDiv k 4194304)
  else ceilDiv k 4 + 2

/-- The test of R79 on finite codes: |T − X| ≤ (2β + 16) × 2^−37 × Y + (⌈K/4⌉ + 24) × 2^−1058. -/
def rowPasses (pt : Bool) (k t x y : Nat) : Bool :=
  let tx := dyAdd (numDy (daVal t)) (numDy (numNegate (daVal x)))
  let yd := numDy (daVal y)
  dyLe ((tx.1.natAbs : Int), tx.2)
    (dyAdd ((2 * checkBeta pt k + 16 : Nat) * yd.1, yd.2 - 37) ((ceilDiv k 4 + 24 : Nat), -1058))
where
  numNegate : Num → Num
    | .nan => .nan
    | .inf s => .inf (!s)
    | .fin s m e => .fin (!s) m e

/-- The outcome of one row: skipped, or passed or failed (R79, R80). -/
inductive RowCheck where
  | skip | pass | fail
  deriving DecidableEq, Repr

/-- Checks one row of an operation against the cells its tile holds. -/
def checkRow (k : Core) (o : ArrOp) (row : Nat × Nat × Nat × List Nat) : RowCheck :=
  let q := row.1
  let key := 32 * q + row.2.1
  let cells := (tblGet {} k.slots (4 * q + o.slot)).cells
  let ds := row.2.2.2.map (fun j => tblGet 0 cells (9 * row.2.1 + (cellOf o.shape o.sub row.2.2.1 j).2.2))
  let x := tblGet 0 o.xs key
  if key ∈ o.skips then .skip
  else if opInt o then (if ds.foldl (· + ·) 0 = x then .pass else .fail)
  else
    let y := tblGet 0 o.ys key
    let t := (ds.foldl (fun a d => daAddF a d.toNat) (0, 0)).1
    let codes := t :: x.toNat :: y :: ds.map Int.toNat
    if codes.any (fun d => !numFinite (daVal d)) then .skip
    else if rowPasses o.pt o.k t x.toNat y then .pass else .fail

/-- Records a failing row (R81, R94): the first since CSUM_MISMATCH was clear. -/
def csumFail (c q slot row : Nat) (s : State) : State :=
  let p := arrPage c
  let s := if getF s p Arr.csumValid = 0 then
      setF p Arr.csumValid 1 (setF p Arr.csumRow row (setF p Arr.csumSlot slot (setF p Arr.csumSub q s)))
    else s
  reportUc (pgArr c) Arr.eCsumMismatch (hedgeOfCore s c) c (siteOf s c) false (setErr p Arr.eCsumMismatch 0 0 s)

/-- ARR_CHECKSUM_COMPARE (R72 order 6): each row is checked, skipped rows are counted, the slots are released, and a draining
operation takes its snapshot. -/
def checksumCompare (c i : Nat) (bad : Option CellFault) (s : State) : State :=
  let k := getCore s c
  match k.ops[i]? with
  | none => s
  | some o =>
    if o.stage ≠ .folded then s
    else
      let s := meetSlots c ((shapeMembers o.shape o.sub).map (fun q => 4 * q + o.slot)) s
      let k := getCore s c
      let k := match bad with
        | none => k
        | some b =>
          let key := 4 * b.sub.val + o.slot
          let sl := tblGet {} k.slots key
          let v : Int := if sl.tag = .int then b.code.toInt else b.code.toNat
          { k with slots := tblPut {} k.slots key { sl with cells := tblPut 0 sl.cells (9 * b.row.val + b.col.val) v } }
      let rows := (checkRows o).map (fun r => (r, checkRow k o r))
      let skipped := (rows.filter (fun r => r.2 == .skip)).length
      let failed := (rows.filter (fun r => r.2 == .fail)).map (fun r => (r.1.1, r.1.2.1))
      let dim := shapeDim o.shape
      let snap : Snapshot := ⟨o.ofmt, o.sat, o.stat, o.statRow, dim.1, o.odesc,
        (shapeMembers o.shape o.sub).map (fun q => 4 * q + o.slot), tileCells k o.shape o.sub o.slot o.m o.n, !failed.isEmpty⟩
      let k := { k with ops := k.ops.eraseIdx i, snaps := if o.drain then k.snaps ++ [snap] else k.snaps }
      let s := coreEv c 0x06 1 (addF (arrPage c) Arr.csumSkip skipped (putCore c k s))
      failed.foldl (fun s r => csumFail c r.1 o.slot r.2 s) s

def execArrChecksumCompare (c : CoreId) (i : Fin 8) (bad : Option CellFault) (s : State) : Host.Outcome State Fault Refusal :=
  Next (checksumCompare c i bad s)

/-! ## The drain path (R82 to R84) -/

/-- The address of an output element. -/
def outAddr (d : List Nat) (f : Fmt) (i j : Nat) : Nat :=
  if dLayout d = 0 then dBase d + i * dStride d + j * fmtBytes f else dBase d + j * dStride d + i * fmtBytes f

/-- e(x − m) of R83 as an FP32 code: 1 where x equals m, 0 where x is −infinity and m is not, else within 2 ulp (R84). -/
def statExp (free : Nat) (x m : Num) : Nat :=
  if numEq' x m then 0x3F800000
  else match x, m with
    | .inf true, _ => 0
    | _, .inf false => 0
    | .fin s a e, .fin t b d =>
      let y := dyAdd (sgn s a, e) (-(sgn t b), d)
      if dyLe y (-300, 0) then (freeNear free tiny (1, -148) tiny).1
      else
        let r := exp2Dy (fxOfDy y * log2e / 2 ^ fxBits)
        (freeNear free r ((2 : Int), (ulp32 r).2) (1, r.2 + 16)).1
    | _, _ => 0x7FC00000
where
  numEq' (x y : Num) : Bool := !numIsNan x && !numIsNan y && !numLt x y && !numLt y x

/-- The greater of two FP32 codes, NaN ignored. -/
def statMax (m x : Nat) : Nat :=
  if numLt (fdecode (fspec .fp32) m) (fdecode (fspec .fp32) x) then x else m

/-- One row's update (R83): the new m and s, and the number of free values drawn. -/
def statRowUpdate (free : Nat → Nat) (st : RowStat) (xs : List Nat) : RowStat × Nat :=
  let val := fdecode (fspec .fp32)
  let mNew := xs.foldl statMax st.m
  if xs.any (fun x => numIsNan (val x)) then (⟨mNew, daNan⟩, 0)
  else if numIsNan (daVal st.s) then (⟨mNew, daNan⟩, 0)
  else
    let scale := statExp (free 0) (val st.m) (val mNew)
    let s0 := (daRound (numMul (daVal st.s) (val scale)).1).1
    let es := xs.zipIdx.map (fun e => daOfFmt .fp32 (statExp (free (e.2 + 1)) (val e.1) (val mNew)))
    (⟨mNew, (es.foldl daAddF (s0, 0)).1⟩, xs.length + 1)

/-- The FP32 code of one drained element for the statistics: rounded with saturation off. -/
def statElem (int : Bool) (v : Int) : Nat :=
  (fround (fspec .fp32) false (if int then numOfInt v else daVal v.toNat)).1

/-- The row statistics of a snapshot, row after row: the updated store, the words written for the host, the flags and the free
values drawn. -/
def drainStats (c : Nat) (d : Snapshot) (rows : List Nat) (s : State) : State × Nat :=
  rows.foldl (fun (acc : State × Nat) i =>
    let s := acc.1
    let k := getCore s c
    let r := 32 * d.statRow + i
    let xs := (d.cells.filter (fun e => e.1 == i)).map (fun e => statElem e.2.2.1 e.2.2.2)
    let u := statRowUpdate (fun n => Config.freeNat (s.freeCtr + n)) (tblGet {} k.stats r) xs
    let sOut := fround (fspec .fp32) false (daVal u.1.s)
    let s := { putCore c { k with stats := tblPut {} k.stats r u.1 } s with freeCtr := s.freeCtr + u.2 }
    (spmWrite c (dScaleBase d.odesc + 8 * i) (leBytes 4 u.1.m ++ leBytes 4 sOut.1) s, acc.2 ||| sOut.2)) (s, 0)

/-- The fresh statistics of rows that STAT = 0b01 starts (R83), and of every row at step start (R99): m = −infinity, s = +0. -/
def freshStat : RowStat := ⟨0xFF800000, 0⟩

/-- ARR_DRAIN_WRITE (R72 order 7): the oldest snapshot is rounded and written, with its row statistics. -/
def drainWrite (c : Nat) (s : State) : State :=
  let k := getCore s c
  match k.snaps with
  | [] => s
  | d :: rest =>
    let f := (fmtOf d.ofmt).getD .fp32
    let outs := d.cells.map (fun e => (e.1, e.2.1, drainElem e.2.2.1 f d.sat e.2.2.2))
    let fl := outs.foldl (fun a e => a ||| e.2.2.2) 0
    let stats := if d.stat = 1 then
        (List.range d.rowsMax).foldl (fun t i => tblPut {} t (32 * d.statRow + i) freshStat) k.stats
      else k.stats
    let s := putCore c { k with snaps := rest, stats := stats } s
    let s := outs.foldl (fun s e => spmWrite c (outAddr d.odesc f e.1 e.2.1) (leBytes (fmtBytes f) e.2.2.1) s) s
    if d.stat = 0 then raiseArr c fl s
    else
      let r := drainStats c d (d.cells.map (fun e => e.1)).eraseDups s
      raiseArr c (fl ||| r.2) r.1

/-- The waiting drains of a core are written, oldest first; `fuel` bounds them. -/
def drainAll (c : Nat) : Nat → State → State
  | 0, s => s
  | n + 1, s => drainAll c n (drainWrite c s)

/-- What a freeze does to the drains of a core: that of a tile whose row failed the check still completes (R81), the others are discarded with the rest in
flight (R432). -/
def finishDrains (c : Nat) (s : State) : State :=
  let k := getCore s c
  let l := k.snaps.filter (fun d => d.failed)
  drainAll c l.length (putCore c { k with snaps := l } s)

def execArrDrainWrite (c : CoreId) (s : State) : Host.Outcome State Fault Refusal := Next (drainWrite c s)

end Sys2Proof.Machine
end

