-- ==== Sys2Proof/Machine/Pages.lean ====
section
/-!
DEFINITION. Register pages by address (R502 to R518): which page an address names, and the words of a page as its stored fields show them and take
writes, with the ranges that a written value is clamped to. Words that show running state are Registers.lean's.
-/
namespace Sys2Proof.Machine

/-- The page at page number n of a core window. -/
def corePageAt (s : State) (c n : Nat) : Option Page :=
  match n with
  | 0 => some ⟨rtrPage (routingSite s c), .router, c⟩
  | 1 => some (pgArr c)
  | 2 => some (pgSpm c)
  | 3 => some ⟨vecPage c, .vectorSet, c⟩
  | 4 => some (pgSeq c)
  | 5 => some ⟨corePageCnt c, .counterBank, 0x1000 + c⟩
  | 6 => some ⟨tagPage c, .tagBuffer, c⟩
  | _ => none

/-- Page number n from a base, of `count` pages. -/
def nthPage (a base count : Nat) : Option Nat :=
  if base ≤ a ∧ a < base + count * 0x1000 then some ((a - base) / 0x1000) else none

/-- The pages of the engines, ports, Mere channels, collector and Hedges. -/
def enginePageAt (a : Nat) : Option Page :=
  let b := a - a % 0x1000
  match nthPage a fePage 33 with
  | some 0 => some ⟨b, .fabricEngine, 0⟩
  | some (q + 1) => some (pgQue q)
  | none =>
  match nthPage a tePage 65 with
  | some 0 => some ⟨b, .transferEngine, 0⟩
  | some (q + 1) => some (pgQue (32 + q))
  | none =>
  match nthPage a nePage 33 with
  | some 0 => some pgNe
  | some (q + 1) => some (pgQue (96 + q))
  | none =>
  match nthPage a (evtPage 0) 16 with
  | some k => some ⟨b, .eventCounters, k⟩
  | none =>
  match nthPage a (conPage 0) 16 with
  | some k => some ⟨b, .connections, k⟩
  | none =>
  match nthPage a (mcPage 0) 192 with
  | some ch => some (pgMc ch)
  | none =>
  match nthPage a (hdgPage 0) 32 with
  | some h => some ⟨b, .hedge, h⟩
  | none =>
  match nthPage a (bankPage 0) 199 with
  | some j => some ⟨b, .counterBank, bankInst j⟩
  | none =>
  match nthPage a (ethPage 0) 4 with
  | some n => some ⟨b, if n = 0 then .port else if n = 3 then .macsec else .interface, if n = 0 ∨ n = 3 then 0 else n - 1⟩
  | none =>
  match nthPage a (ethPage 1) 4 with
  | some n => some ⟨b, if n = 0 then .port else if n = 3 then .macsec else .interface, if n = 0 ∨ n = 3 then 1 else n + 1⟩
  | none =>
  if b = segPage then some ⟨b, .segmentTable, 0⟩
  else if b = rasPage then some ⟨b, .rasis, 0⟩
  else if b = msmPage then some ⟨b, .mereSummary, 0⟩
  else if b = colPage then some ⟨b, .collector, 0⟩
  else none

/-- The pages of the Privet aperture. -/
def privetPageAt (a : Nat) : Option Page :=
  let b := a - a % 0x1000
  match nthPage a (quePage 128) 4 with
  | some q => some (pgQue (128 + q))
  | none =>
  match nthPage a (cpcPage 0) 3 with
  | some k => some ⟨b, .clusterControl, k⟩
  | none =>
  match nthPage a (brgPage 0) 8 with
  | some k => some ⟨b, .bootRing, k⟩
  | none =>
  match nthPage a (stePage 0) 9 with
  | some k => some ⟨b, .siteEntries, k⟩
  | none =>
  if b = prvPage then some ⟨b, .privetStatus, 0⟩
  else if b = secPage then some pgSec
  else if b = inpPage then some pgInp
  else if b = refPage then some pgRef
  else if b = pctPage then some pgPct
  else if b = bupPage then some pgBup
  else if b = errPage then some pgErr
  else if b = ftePage then some ⟨b, .fieldTest, 0⟩
  else none

/-- The page an address names, if one exists. -/
def pageAt (s : State) (a : Nat) : Option Page :=
  if coreWindow 0 ≤ a ∧ a < coreWindow 4096 then corePageAt s ((a - coreWindow 0) / 0x10000) (a % 0x10000 / 0x1000)
  else if siteWindow 0 ≤ a ∧ a < siteWindow 4608 then
    let p := (a - siteWindow 0) / 0x10000
    match a % 0x10000 / 0x1000 with
    | 0 => some (pgRtr p)
    | 1 => some ⟨sitePage p, .site, p⟩
    | _ => none
  else if clusterWindow 0 ≤ a ∧ a < clusterWindow 288 then
    let cl := (a - clusterWindow 0) / 0x2000
    if a % 0x2000 < 0x1000 then some (pgSpr cl) else some (pgClk cl)
  else if prvPage ≤ a then privetPageAt a
  else if fePage ≤ a then enginePageAt a
  else none

/-- The register aperture: every address from the core windows up (R502). -/
def inRegisters (a : Nat) : Bool :=
  decide (coreWindow 0 ≤ a ∧ a < coreWindow 4096) || decide (siteWindow 0 ≤ a ∧ a < siteWindow 4608) ||
    decide (clusterWindow 0 ≤ a ∧ a < clusterWindow 288) || decide (fePage ≤ a ∧ a < fePage + 0x620000) ||
    decide (prvPage ≤ a ∧ a < prvPage + 0x49000)

/-! ## Words of stored fields -/

/-- The fields of the common page header that are stored (R509). -/
def headerFields : List Field := [Hdr.evtHold, Hdr.isr, Hdr.ien, Hdr.err, Hdr.errAddrLo, Hdr.errAddrHi, Hdr.errInfo]

/-- The index of a repeated register that stands at an offset of the page. -/
def fieldIndex (f : Field) (off : Nat) : Option Nat :=
  if f.off ≤ off ∧ off < f.off + f.n * f.stride ∧ (off - f.off) % f.stride = 0 then some ((off - f.off) / f.stride) else none

/-- The stored fields of a word, with their indices. -/
def wordFields (pg : Page) (off : Nat) : List (Field × Nat) :=
  (headerFields ++ pageFields pg.ty).filterMap (fun f => (fieldIndex f off).map (fun i => (f, i)))

/-- What a word shows of its stored fields. -/
def storedWord (s : State) (pg : Page) (off : Nat) : Nat :=
  (wordFields pg off).foldl (fun n e => n + getF s pg.base e.1 e.2 * 2 ^ e.1.lo) 0

/-- The value a field takes for a written one: some fields clamp it to the nearer limit (R263, R289, R318, R340, R353, R364, R451, R487,
R501). -/
def clampField (ty : PageType) (f : Field) (v : Nat) : Nat :=
  let fit := fun (lo hi : Nat) => max lo (min hi v)
  match ty with
  | .clusterClock =>
    if f = Clk.droopMv then fit 0 12 else if f = Clk.gateUs then fit 2 255 else if f = Clk.standbyMs then fit 1 1023 else v
  | .fieldTest => if f = Fte.periodMs then fit 20 32767 else if f = Fte.wakeS then fit 60 4095 else v
  | .counterBank => if f = Cnt.bwLog2 then fit 10 24 else v
  | .tagBuffer => if f = Tag.tagN then fit 4 24 else v
  | .rasis => if f = Ras.keepaliveMs then fit 5 255 else if f = Ras.deadMs then fit 10 10000 else v
  | .networkEngine => if f = Ne.timeoutMs then fit 1 60000 else v
  | .channel => if f = Mc.retrainMs then fit 20 250 else if f = Mc.tempDelta then fit 2 15 else v
  | .spring => if f = Spr.vcode then fit 0 100 else if f = Spr.limit then fit 1 80 else v
  | _ => v

/-- Writes the bits of a mask into the stored fields of a word that `may` admits. -/
def writeStored (pg : Page) (off v mask : Nat) (may : Field → Bool) (s : State) : State :=
  (wordFields pg off).foldl (fun s e =>
    if may e.1 then
      let old := getF s pg.base e.1 e.2
      let m := bitsOf mask e.1.lo e.1.len
      let new := (old &&& (2 ^ e.1.len - 1 - m)) ||| (bitsOf v e.1.lo e.1.len &&& m)
      setF pg.base e.1 (clampField pg.ty e.1 new) s e.2
    else s) s

/-! ## Configuration entries (R460) -/

/-- Registers whose PW fields SET_CONFIG may write: ETH_CFG, the interface registers, RAS_CFG, RAS_TIMERS, RAS_ADMIT, MC_CFG, CLK_CFG, NE_CFG, ERR_CFG, FT_CFG and
PRIV_CAPDEF. -/
def configTarget (s : State) (a : Nat) : Option Page :=
  match pageAt s a with
  | none => none
  | some pg =>
    let off := a % 0x1000
    let ok : Bool := a % 4 == 0 && (match pg.ty with
      | .port => off == 0x40
      | .interface => decide (0x40 ≤ off ∧ off < 0x80)
      | .rasis => off == 0x40 || off == 0x44 || decide (0x100 ≤ off ∧ off < 0x300)
      | .channel => off == 0x44
      | .clusterClock => off == 0x44
      | .networkEngine => off == 0x40
      | .error => off == 0x58
      | .fieldTest => off == 0x40
      | .privetStatus => off == 0x48
      | _ => false) && (wordFields pg off).any (fun e => e.1.acc == .pw)
    if ok then some pg else none

/-- Applies one entry: address, value and mask. -/
def applyEntry (e : Nat × Nat × Nat) (s : State) : State :=
  match configTarget s e.1 with
  | none => s
  | some pg =>
    if pg.ty = .privetStatus then
      let d := s.flash.capDef
      let m := e.2.2 % 65536
      let v := (d &&& (65535 - m)) ||| (e.2.1 % 65536 &&& m)
      { s with flash := { s.flash with capDef := max 1500 (min v (fusedMax s)) } }
    else writeStored pg (e.1 % 0x1000) e.2.1 e.2.2 (fun f => f.acc == .pw) s

def applyConfig (s : State) : State := s.flash.config.foldl (fun s e => applyEntry e s) s

end Sys2Proof.Machine
end

