-- ==== Sys2Proof/Machine/Codec.lean ====
section
/-!
DEFINITION. The collective codec, by R308 to R311: transport encodings, segment data, CRC-64/XZ and the DA48 digests.
-/
namespace Sys2Proof.Machine

/-! ## CRC-64/XZ (R311) -/

/-- One bit of the reflected CRC. -/
def crcBit (c : Nat) : Nat := if c % 2 = 1 then (c / 2) ^^^ 0xC96C5795D7870F42 else c / 2

/-- One byte. -/
def crcByte (c : Nat) (b : Byte) : Nat :=
  crcBit (crcBit (crcBit (crcBit (crcBit (crcBit (crcBit (crcBit (c ^^^ b.toNat))))))))

/-- CRC-64/XZ of a list of bytes. -/
def crc64 (l : List Byte) : Nat := (l.foldl crcByte (2 ^ 64 - 1)) ^^^ (2 ^ 64 - 1)

/-! ## Transport formats (R308) -/

/-- Bytes of an element of a transport format; block-scaled E4M3 counts its element byte. -/
def tBytes (t : Nat) : Nat := if t = 7 then 8 else if t = 5 then 4 else if t = 3 then 2 else 1

/-- The magnitude dyadic of a finite DA48 code. -/
def daMag (c : Nat) : Nat × Int :=
  match daVal c with
  | .fin _ m e => (m, e)
  | _ => (0, 0)

/-- The scale exponent of a block: the least e with M ≤ 448 × 2^e, clamped; 0 for a block with no finite non-zero value. -/
def blockExp (block : List Nat) : Int :=
  let m := block.foldl (fun (b : Nat × Int) c =>
    let x := daMag c
    if dyLe ((x.1 : Int), x.2) ((b.1 : Int), b.2) then b else x) (0, 0)
  if m.1 = 0 then 0
  else
    let bl : Nat := bitLen m.1
    let t : Int := if m.1 * 8 ≤ 7 * 2 ^ bl then (bl : Int) - 3 else (bl : Int) - 2
    max (-127) (min 127 (t + m.2 - 6))

/-- An element of a block: x × 2^−e in E4M3, NaN and infinities as the canonical NaN. -/
def blockElem (e : Int) (c : Nat) : Nat × Nat :=
  match daVal c with
  | .fin s m q => fround (fspec .e4m3) false (.fin s m (q - e))
  | _ => (0x7F, flagNanOut)

/-- A decoded element of a block. -/
def blockVal (e : Int) (b : Nat) : Nat :=
  match fdecode (fspec .e4m3) b with
  | .fin s m q => (daRound (.fin s m (q + e))).1
  | _ => daNan

/-- A DA48 code with any NaN as the canonical one (R55). -/
def daCanon (c : Nat) : Nat := if numIsNan (daVal c) then daNan else c

/-- The encoded bytes of one element of a plain transport format, and the flags. -/
def plainEnc (t c : Nat) : List Byte × Nat :=
  if t = 7 then (leBytes 8 (daContainer (daCanon c)), 0)
  else if t = 5 then let r := fround (fspec .fp32) false (daVal c); (leBytes 4 r.1, r.2)
  else let r := fround (fspec .bf16) false (daVal c); (leBytes 2 r.1, r.2)

/-- A decoded element of a plain transport format. -/
def plainDec (t : Nat) (b : List Byte) : Nat :=
  if t = 7 then daOfContainer (leNat b)
  else if t = 5 then daOfFmt .fp32 (leNat b)
  else daOfFmt .bf16 (leNat b)

/-- Zeros up to a multiple of `n`. -/
def padTo (n : Nat) (l : List Byte) : List Byte := l ++ List.replicate ((n - l.length % n) % n) 0

/-- The data of a segment: values, and the indices of a MAX or MIN segment (R309). Answers the bytes and the flags. -/
def encodeSeg (t : Nat) (withIdx : Bool) (vals : List (Nat × Nat)) : List Byte × Nat :=
  if t = 1 then
    let blocks := chunks 32 vals.length (vals.map (fun v => v.1))
    let exps := blocks.map blockExp
    let elems := (blocks.zip exps).map (fun p =>
      let es := p.1.map (blockElem p.2)
      (padTo 32 (es.map (fun e => BitVec.ofNat 8 e.1)), es.foldl (fun f e => f ||| e.2) 0))
    let scales : List Byte := exps.map (fun e => BitVec.ofNat 8 (e + 127).toNat)
    (padTo 8 scales ++ (elems.map (fun e => e.1)).flatten, elems.foldl (fun f e => f ||| e.2) 0)
  else
    let es := vals.map (fun v => plainEnc t v.1)
    let bytes := (es.map (fun e => e.1)).flatten
    let idx := if withIdx then (vals.map (fun v => leBytes 4 v.2)).flatten else []
    ((if withIdx then padTo 4 bytes else bytes) ++ idx, es.foldl (fun f e => f ||| e.2) 0)

/-- The values of a segment of `n` elements, with its indices. -/
def decodeSeg (t : Nat) (withIdx : Bool) (n : Nat) (data : List Byte) : List (Nat × Nat) :=
  if t = 1 then
    let nb := (n + 31) / 32
    let start := (nb + 7) / 8 * 8
    (List.range n).map (fun i =>
      let e : Int := ((data.getD (i / 32) 0).toNat : Int) - 127
      (blockVal e (data.getD (start + i) 0).toNat, 0))
  else
    let w := tBytes t
    let start := (n * w + 3) / 4 * 4
    (List.range n).map (fun i =>
      (plainDec t ((data.drop (i * w)).take w), if withIdx then leNat ((data.drop (start + 4 * i)).take 4) else 0))

/-! ## Digests (R311) -/

/-- The DA48 sum of values in ascending order from +0, and the sum of their magnitudes rounded toward +infinity. -/
def sumDigest (vals : List (Nat × Nat)) : Nat := vals.foldl (fun a v => (daAdd a v.1).1) 0
def absDigest (vals : List (Nat × Nat)) : Nat := vals.foldl (fun a v => daAddUp a (v.1 % 2 ^ 47)) 0

/-- u_T of R304, as a power of two; none for DA48. -/
def unitExp (t : Nat) : Option Int := if t = 5 then some (-24) else if t = 3 then some (-8) else if t = 1 then some (-4) else none

/-- σ of one element (R311): the exponent of its power of two, none for DA48. -/
def sigmaExp (t : Nat) (data : List Byte) (i : Nat) : Option Int :=
  if t = 5 then some (-150) else if t = 3 then some (-134)
  else if t = 1 then some (((data.getD (i / 32) 0).toNat : Int) - 137) else none

/-- A dyadic rounded toward +infinity into DA48, and its value. -/
def daUp (x : Int × Int) : Int × Int :=
  let c := magCode ceilShift (fspec .da48) x.1.toNat x.2
  if c ≤ (fspec .da48).max then numDy (daVal c) else x

/-- The sum check; `none` where it is skipped because a value or digest is NaN or infinite. -/
def sumCheck (t n : Nat) (data : List Byte) (vals : List (Nat × Nat)) (sum abs : Nat) : Option Bool :=
  if vals.any (fun v => !numFinite (daVal v.1)) || !numFinite (daVal sum) || !numFinite (daVal abs) then none
  else
    let d := numDy (daVal (sumDigest vals))
    let s := numDy (daVal sum)
    let diff := dyAdd d (-s.1, s.2)
    let a := numDy (daVal abs)
    let u : Int × Int := match unitExp t with
      | some e => (1, e)
      | none => (0, 0)
    let k := dyAdd u ((3 * n + 4 : Nat), -37)
    let sig : Int × Int := (List.range n).foldl (fun acc i => match sigmaExp t data i with
      | some e => dyAdd acc (1, e)
      | none => acc) (0, 0)
    let rhs := dyAdd (dyAdd (k.1 * a.1, k.2 + a.2) sig) ((n : Int), -1058)
    some (dyLe (diff.1.natAbs, diff.2) (daUp rhs))

end Sys2Proof.Machine
end

