-- ==== Sys2Proof/Machine/CoreUnits.lean ====
section
/-!
DEFINITION. The set unit, the gather unit and the stream generators of a core, by R116 to R126.
-/
namespace Sys2Proof.Machine

/-! ## The set unit, by R123 to R125 -/

/-- A generator suits a consumer of values (any mode) or of addresses (address mode), with the ESIZE its rule gives (R116). -/
def genSuits (g : List Nat) (addrOnly : Bool) (esize : Nat) : Bool :=
  genOk g && (!addrOnly || gMode g == 0) && gEsize g == esize

/-- SET.RUN at issue (R123): op 0 MERGE, 1 INTERSECT, 2 UNION, 3 DIFF, 4 JOIN. The row of the command fixes the operation; a MOD
outside them is cause 0x21. IMM[15:12] is a field only with KEYS_EN. -/
def setIssue (op : Nat) (c : Nat) (w : IWord) (s : State) : State :=
  let used := if wf w 16 1 = 1 then [(0, 18)] else [(0, 12), (16, 2)]
  issue c ([pRd, pRa, pRb, pRc, pMod] ++ used) [fRa w, fRb w, fRc w] w (fun k s =>
    let imm := fImm w
    let key64 := imm.testBit 17
    let ks := if key64 then 3 else 2
    let o : SetOp := {
      op := op, na := (sreg k (fRa w)).toNat % 2 ^ 32, nb := (sreg k (fRb w)).toNat % 2 ^ 32, cap := (sreg k (fRc w)).toNat,
      rd := fRd w, ga := captureGen s c (bitsOf imm 0 4), gb := captureGen s c (bitsOf imm 4 4),
      gp := captureGen s c (bitsOf imm 8 4), gk := captureGen s c (bitsOf imm 12 4),
      keysEn := imm.testBit 16, key64 := key64, pc := k.pc }
    if 4 < fMod w then coreFault c k.pc 0x21 s
    else if !(genSuits o.ga false ks && genSuits o.gb false ks && genSuits o.gp true 3 && (!o.keysEn || genSuits o.gk true ks)) then
      coreFault c k.pc 0x26 s
    else if 2 ≤ k.setq.length then holdCycle c s
    else retire c { k with setq := k.setq ++ [o] } s) s (fRd w)

def execMerge (c : CoreId) (w : IWord) (s : State) : Host.Outcome State Fault Refusal :=
  Issued 2 0x01 c w s (Next (setIssue 0 c w s))
def execIntersect (c : CoreId) (w : IWord) (s : State) : Host.Outcome State Fault Refusal :=
  Issued 2 0x01 c w s (Next (setIssue 1 c w s))
def execUnion (c : CoreId) (w : IWord) (s : State) : Host.Outcome State Fault Refusal :=
  Issued 2 0x01 c w s (Next (setIssue 2 c w s))
def execDiff (c : CoreId) (w : IWord) (s : State) : Host.Outcome State Fault Refusal :=
  Issued 2 0x01 c w s (Next (setIssue 3 c w s))
def execJoin (c : CoreId) (w : IWord) (s : State) : Host.Outcome State Fault Refusal :=
  Issued 2 0x01 c w s (Next (setIssue 4 c w s))

/-- The absent side of a record. -/
def setNone : Nat := 0xFFFFFFFF

/-- The records one key group emits (R124): `ca` occurrences from position i of A, `cb` from position j of B. -/
def setEmit (op i j ca cb key : Nat) : List (Nat × Nat × Nat) :=
  let both := (List.range (min ca cb)).map (fun t => (i + t, j + t, key))
  let restA := (List.range (ca - cb)).map (fun t => (i + cb + t, setNone, key))
  let restB := (List.range (cb - ca)).map (fun t => (setNone, j + ca + t, key))
  match op with
  | 0 => (List.range ca).map (fun t => (i + t, setNone, key)) ++ (List.range cb).map (fun t => (setNone, j + t, key))
  | 1 => both
  | 2 => both ++ restA ++ restB
  | 3 => restA
  | _ => (List.range ca).flatMap (fun a => (List.range cb).map (fun b => (i + a, j + b, key)))

/-- The procedure of R124 over the keys left of each input, from positions i and j; `fuel` bounds the key groups. -/
def setRun (op : Nat) : Nat → Nat → Nat → List Nat → List Nat → List (Nat × Nat × Nat)
  | 0, _, _, _, _ => []
  | _ + 1, _, _, [], [] => []
  | n + 1, i, j, a, b =>
    let key := match a, b with
      | x :: _, y :: _ => min x y
      | x :: _, [] => x
      | [], y :: _ => y
      | [], [] => 0
    let ca := (a.takeWhile (· == key)).length
    let cb := (b.takeWhile (· == key)).length
    setEmit op i j ca cb key ++ setRun op n (i + ca) (j + cb) (a.drop ca) (b.drop cb)

/-- The smaller of two optional keys. -/
def minKey : Option Nat → Option Nat → Option Nat
  | some a, some b => some (min a b)
  | some a, none => some a
  | none, b => b

/-- An input cut before its first key that is smaller than the one before it (R125). -/
def cutSorted : List Nat → List Nat
  | [] => []
  | [x] => [x]
  | x :: y :: t => if y < x then [x] else x :: cutSorted (y :: t)

/-- The smallest key of an input that stands directly before a smaller one, if there is one (R125). -/
def leastDescent : List Nat → Option Nat
  | x :: y :: t => if y < x then minKey (some x) (leastDescent (y :: t)) else leastDescent (y :: t)
  | _ => none

/-- Writes the first records of a list to the pair output and, where asked, the keys (R124). -/
def setWrite (c : Nat) (o : SetOp) (recs : List (Nat × Nat × Nat)) (s : State) : State :=
  (recs.zipIdx).foldl (fun s e =>
    let s := genWrite c o.gp (8 * e.2) (leBytes 4 e.1.1 ++ leBytes 4 e.1.2.1) s
    if o.keysEn then let n := if o.key64 then 8 else 4; genWrite c o.gk (n * e.2) (leBytes n e.1.2.2) s else s) s

/-- SET_RUN_COMPLETE (R125): the oldest operation of the set unit ends. Unsorted input writes the records below k* and faults with
cause 0x27; an uncorrectable or ill-parity read is UC and the operation does not complete. -/
def setComplete (c : Nat) (parityBad : Bool) (s : State) : State :=
  let k := getCore s c
  match k.setq with
  | [] => s
  | o :: rest =>
    if k.mode ≠ .run then s
    else if parityBad then
      reportUc (pgSeq c) Seq.eUnitParity (hedgeOfCore s c) c (siteOf s c) false (setErr (seqPage c) Seq.eUnitParity 0 0 s)
    else
      let ks := if o.key64 then 8 else 4
      let ra := genBytes c o.ga 0 o.na s
      let rb := genBytes c o.gb 0 o.nb ra.2.2
      let s := rb.2.2
      if ra.2.1 || rb.2.1 then s
      else
        let a := (chunks ks o.na ra.1).map leNat
        let b := (chunks ks o.nb rb.1).map leNat
        let recs := setRun o.op (a.length + b.length + 1) 0 0 (cutSorted a) (cutSorted b)
        match minKey (leastDescent a) (leastDescent b) with
        | some kstar =>
          let s := setWrite c o ((recs.filter (fun e => decide (e.2.2 < kstar))).take o.cap) s
          coreFault c o.pc 0x27 (putCore c { getCore s c with setq := rest } s)
        | none =>
          let n := recs.length
          let s := setWrite c o (recs.take o.cap) s
          let p := vecPage c
          let s := setF p Vec.setLastHi (n / 2 ^ 32) (setF p Vec.setLastLo n s)
          let s := coreEv c 0x12 (a.length + b.length) (coreEv c 0x13 (min n o.cap) (addF p Vec.setOps 1 s))
          let s := if o.cap < n then addF p Vec.setTrunc 1 s else s
          putCore c (writeS o.rd (BitVec.ofNat 64 (min n (2 ^ 64 - 1))) 0 { getCore s c with setq := rest }) s

def execSetRunComplete (c : CoreId) (parityBad : Bool) (s : State) : Host.Outcome State Fault Refusal :=
  Next (setComplete c parityBad s)

/-! ## The gather unit, by R121 -/

def execGthArm (c : CoreId) (w : IWord) (s : State) : Host.Outcome State Fault Refusal :=
  Issued 3 0x01 c w s (Next (issue c [pRd, pRa, pRb, pRc, (0, 4)] [fRd w, fRa w, fRb w, fRc w] w (fun k s =>
    let g := captureGen s c (wf w 0 4)
    if genSuits g false 2 = false then coreFault c k.pc 0x26 s
    else
      let arm : GatherArm := ⟨(sreg k (fRa w)).toNat, (sreg k (fRb w)).toNat, (sreg k (fRc w)).toNat, (sreg k (fRd w)).toNat, g, 0⟩
      retire c { k with arm := some arm } s) s))

/-- Local cycles the gather unit loses, which only timing gives (R122): a free number. -/
def gatherHold (c : Nat) (s : State) : State :=
  let d := draw s
  coreEv c 0x15 d.1 (addF (vecPage c) Vec.gthHoldCyc d.1 d.2)

/-- GTH.COPY writes its rows when it issues, one of the moments R103 allows; a row of index 0xFFFF_FFFF is zero bytes. -/
def execGthCopy (c : CoreId) (w : IWord) (s : State) : Host.Outcome State Fault Refusal :=
  Issued 3 0x02 c w s (Next (issue c [pRa, pRb] [fRa w, fRb w] w (fun k s =>
    let dst := (sreg k (fRa w)).toNat
    let n := (sreg k (fRb w)).toNat
    let bytes := (k.arm.map (fun g => g.bytes)).getD 0
    if n ≠ 0 ∧ spmSize < dst + n * bytes then coreFault c k.pc 0x23 s
    else
      match consumeRows c k n s with
      | (some cause, _, _, _, s) => coreFault c k.pc cause s
      | (none, rows, arm, bad, s) =>
        let reads := rows.foldl (fun (acc : List Byte × Bool × State) a =>
          if a = spmSize then (acc.1 ++ List.replicate bytes 0, acc.2.1, acc.2.2)
          else let r := spmRead c a bytes acc.2.2; (acc.1 ++ r.1, acc.2.1 || r.2.1, r.2.2)) (([] : List Byte), bad, s)
        if reads.2.1 then reads.2.2
        else
          retire c { k with arm := arm } (gatherHold c (coreEv c 0x14 rows.length (addF (vecPage c) Vec.gthRows rows.length (spmWrite c dst reads.1 reads.2.2))))) s))

/-- Every issued GTH.COPY has written its rows at issue, so nothing is waited for. -/
def execGthWait (c : CoreId) (w : IWord) (s : State) : Host.Outcome State Fault Refusal :=
  Issued 3 0x03 c w s (Next (issue c [] [] w (fun k s => retire c k s) s))

/-! ## Stream generators and static channels, by R116 and R119 -/

/-- Writes the eight words of generator g (R137). -/
def loadGen (c g : Nat) (ws : List Nat) (s : State) : State :=
  let p := vecPage c
  let x := fun i => ws.getD i 0
  let s := setF p Vec.genBase (bitsOf (x 0) 0 22) s g
  let s := setF p Vec.genEsize (bitsOf (x 0) 22 3) s g
  let s := setF p Vec.genMode (bitsOf (x 0) 25 2) s g
  let s := setF p Vec.genFmt (bitsOf (x 0) 27 4) s g
  let s := setF p Vec.genCount0 (bitsOf (x 1) 0 16) s g
  let s := setF p Vec.genCount1 (bitsOf (x 1) 16 16) s g
  let s := setF p Vec.genCount2 (bitsOf (x 2) 0 16) s g
  let s := setF p Vec.genStride0 (bitsOf (x 3) 0 23) s g
  let s := setF p Vec.genStride1 (bitsOf (x 4) 0 23) s g
  let s := setF p Vec.genStride2 (bitsOf (x 5) 0 23) s g
  let s := setF p Vec.genSeedLo (x 6) s g
  setF p Vec.genSeedHi (x 7) s g

def execStrLdg (c : CoreId) (w : IWord) (s : State) : Host.Outcome State Fault Refusal :=
  Issued 4 0x01 c w s (Next (issue c [pRd, pRa, pRb, pRc, (0, 4)] [fRd w, fRa w, fRb w, fRc w] w (fun k s =>
    let halves : Nat → List Nat := fun r => [(sreg k r).toNat % 2 ^ 32, (sreg k r).toNat / 2 ^ 32]
    retire c k (loadGen c (wf w 0 4) (halves (fRa w) ++ halves (fRb w) ++ halves (fRc w) ++ halves (fRd w)) s)) s))

/-- Channel-table entry (o, ch) of the router of a logical core (R178, R195): VALID, IN_PORT, IN_CH, SLOTS. -/
def chanValid (s : State) (c o ch : Nat) : Bool := getF s (rtrPage (routingSite s c)) Rtr.chanValid (8 * o + ch) == 1
def chanInPort (s : State) (c o ch : Nat) : Nat := getF s (rtrPage (routingSite s c)) Rtr.chanInPort (8 * o + ch)
def chanInCh (s : State) (c o ch : Nat) : Nat := getF s (rtrPage (routingSite s c)) Rtr.chanInCh (8 * o + ch)

/-- The image binds outbound endpoint ch: some entry takes input port CORE and that channel (R178). -/
def outBound (s : State) (c ch : Nat) : Bool :=
  (List.range 5).any (fun o => (List.range 8).any (fun e =>
    chanValid s c o e && chanInPort s c o e == 4 && chanInCh s c o e == ch))

/-- The image binds inbound endpoint ch: entry (CORE, ch) is valid. -/
def inBound (s : State) (c ch : Nat) : Bool := chanValid s c 4 ch

/-- Gives bytes of an inbound channel to its RECVs in issue order (R120). Answers what no RECV took. -/
def feedRecv (c ch : Nat) : Nat → List Byte → State → List Byte × State
  | 0, bs, s => (bs, s)
  | _, [], s => ([], s)
  | n + 1, bs, s =>
    let k := getCore s c
    match k.strs.findIdx? (fun o => o.recv && o.chan == ch) with
    | none => (bs, s)
    | some i =>
      match k.strs[i]? with
      | none => (bs, s)
      | some o =>
        let take := min bs.length (o.total - o.moved)
        let s := genWrite c o.gen o.moved (bs.take take) s
        let k := getCore s c
        let o' := { o with moved := o.moved + take }
        let strs := if o'.moved = o'.total then k.strs.eraseIdx i else k.strs.set i o'
        feedRecv c ch n (bs.drop take) (putCore c { k with strs := strs } s)

/-- Gives what is left over on an inbound channel to a RECV that has just issued. -/
def feedRest (c ch : Nat) (s : State) : State :=
  let r := feedRecv c ch 9 (tblGet [] s.rest (8 * c + ch)) s
  { r.2 with rest := tblPut [] r.2.rest (8 * c + ch) r.1 }

/-- SEND and RECV at issue (R116, R119). An operation of zero elements moves nothing and is complete. -/
def strIssue (recv : Bool) (c : Nat) (w : IWord) (s : State) : State :=
  issue c [pRa, (0, 4), (8, 3)] [fRa w] w (fun k s =>
    let g := captureGen s c (wf w 0 4)
    let ch := wf w 8 3
    if !(genOk g && (!recv || gMode g == 0)) then coreFault c k.pc 0x26 s
    else if !(if recv then inBound s c ch else outBound s c ch) then coreFault c k.pc 0x2D s
    else if 8 ≤ k.strs.length then holdCycle c s
    else
      let o : StrOp := ⟨recv, ch, g, (sreg k (fRa w)).toNat * gSize g, 0⟩
      if o.total = 0 then retire c k s
      else
        let s := retire c { k with strs := k.strs ++ [o] } s
        if recv then feedRest c ch s else s) s

def execStrSend (c : CoreId) (w : IWord) (s : State) : Host.Outcome State Fault Refusal :=
  Issued 4 0x02 c w s (Next (strIssue false c w s))
def execStrRecv (c : CoreId) (w : IWord) (s : State) : Host.Outcome State Fault Refusal :=
  Issued 4 0x03 c w s (Next (strIssue true c w s))

def execStrWait (c : CoreId) (w : IWord) (s : State) : Host.Outcome State Fault Refusal :=
  Issued 4 0x04 c w s (Next (issue c [(0, 16)] [] w (fun k s =>
    let busy := k.strs.any (fun o => (wf w 0 16).testBit (if o.recv then 8 + o.chan else o.chan))
    if busy then holdCycle c s else retire c k s) s))

end Sys2Proof.Machine
end

