-- ==== Sys2Proof/Machine/CorePond.lean ====
section
/-!
DEFINITION. Ponds: the PND instructions (R127), the check, landing and acknowledgement of write packets (R148 to R153), the
threshold event (R151) and the lost-packet timeout (R186).
-/
namespace Sys2Proof.Machine

/-- States of a Pond, by R161. -/
def pondClosed : Nat := 0
def pondOpen : Nat := 1
def pondClosing : Nat := 2

def pondState (s : State) (c p : Nat) : Nat := getF s (spmPage c) Spm.pondState p
def pondLanded (s : State) (c p : Nat) : Nat := getF s (spmPage c) Spm.landed p

/-- Opens a Pond (R148): its fields, a landed count of zero, and its threshold armed from the RW fields (R161). -/
def openPond (c p base len hedge gen : Nat) (s : State) : State :=
  let pg := spmPage c
  let s := setF pg Spm.base64 (base / 64) s p
  let s := setF pg Spm.len64 (len / 64) s p
  let s := setF pg Spm.srcHedge hedge s p
  let s := setF pg Spm.gen gen s p
  let s := setF pg Spm.landed 0 s p
  let s := setF pg Spm.pondState pondOpen s p
  let k := getCore s c
  let arm : PondArm := ⟨getF s pg Spm.thresh p, getF s pg Spm.evtEn p == 1, getF s pg Spm.evtCtr p, false, none⟩
  putCore c { k with ponds := tblPut {} k.ponds p arm } s

/-- The window rules of R127. -/
def windowOk (base len : Nat) : Bool :=
  base % 64 == 0 && len % 64 == 0 && decide (64 ≤ len) && decide (base + len ≤ spmSize)

def execPndOpen (c : CoreId) (w : IWord) (s : State) : Host.Outcome State Fault Refusal :=
  Issued 5 0x01 c w s (Next (issue c [pRa, pRb, pRc, (0, 4)] [fRa w, fRb w, fRc w] w (fun k s =>
    let p := wf w 0 4
    let base := (sreg k (fRa w)).toNat
    let len := (sreg k (fRb w)).toNat
    let rc := (sreg k (fRc w)).toNat
    if pondState s c p = pondOpen ∨ windowOk base len = false then coreFault c k.pc 0x2B s
    else if pondState s c p = pondClosing then holdCycle c s
    else openPond c p base len (bitsOf rc 0 5) (bitsOf rc 8 8) (retire c k s)) s))

/-- PND.CLOSE: the Pond enters CLOSING, and RD waits for POND_CLOSED (R127, R148). -/
def execPndClose (c : CoreId) (w : IWord) (s : State) : Host.Outcome State Fault Refusal :=
  Issued 5 0x02 c w s (Next (issue c [pRd, (0, 4)] [] w (fun k s =>
    let p := wf w 0 4
    if pondState s c p ≠ pondOpen then coreFault c k.pc 0x2B s
    else
      let arm := { tblGet {} k.ponds p with closeRd := some (fRd w) }
      retire c { k with ponds := tblPut {} k.ponds p arm } (setF (spmPage c) Spm.pondState pondClosing s p)) s (fRd w)))

/-- POND_CLOSED: a CLOSING Pond whose accepted packets have landed becomes CLOSED, and PND.CLOSE returns the final count (R148). A
packet lands when it is accepted, so none is between the two. -/
def execPondClosed (c : CoreId) (p : Fin 16) (s : State) : Host.Outcome State Fault Refusal :=
  let k := getCore s c
  Next (if pondState s c p ≠ pondClosing then s
    else
      let arm := tblGet {} k.ponds p.val
      let k := { k with ponds := tblPut {} k.ponds p.val { arm with closeRd := none } }
      let k := match arm.closeRd with
        | some rd => writeS rd (BitVec.ofNat 64 (pondLanded s c p)) 0 k
        | none => k
      setF (spmPage c) Spm.pondState pondClosed (putCore c k s) p)

/-- Flits of a packet by its payload bytes: 32 in the first, 64 in each later one (R172). -/
def packetFlits (n : Nat) : Nat := 1 + (n - 32 + 63) / 64

/-- Where a packet goes: a request to its destination, an answer back to its sender. -/
def Packet.target (p : Packet) : Nat := if p.answer.isSome then p.src else p.dst

/-- Flits of a packet; an answer has one. -/
def Packet.flits (p : Packet) : Nat := if p.answer.isSome then 1 else packetFlits p.bytes.length

/-- The checks of a PUT: 0x23 for a source past the scratchpad, 0x2C for the rest (R127). -/
def putCause (dest src len : Nat) : Option Nat :=
  if spmSize < src + len then some 0x23
  else if dest / 2 ^ 46 ≠ 0 ∨ len < 4 ∨ 256 < len ∨ len % 4 ≠ 0 ∨ src % 4 ≠ 0 ∨ bitsOf dest 24 22 % 4 ≠ 0 then some 0x2C
  else none

def execPndPut (c : CoreId) (w : IWord) (s : State) : Host.Outcome State Fault Refusal :=
  Issued 5 0x03 c w s (Next (issue c [pRa, pRb, (0, 9)] [fRa w, fRb w] w (fun k s =>
    let dest := (sreg k (fRa w)).toNat
    let src := (sreg k (fRb w)).toNat % 2 ^ 22
    let len := wf w 0 9
    match putCause dest src len with
    | some cause => coreFault c k.pc cause s
    | none =>
      if 64 ≤ k.puts.length then holdCycle c s
      else
        let r := spmRead c src len s
        if r.2.1 then r.2.2
        else
          let s := r.2.2
          let pkt : Packet := ⟨s.nextPkt, c, (hedgeOfCore s c).getD 0, bitsOf dest 0 12, bitsOf dest 12 4, bitsOf dest 16 8,
            bitsOf dest 24 22, r.1, coreRow c, coreCol c, .moving none, 0, 4, k.cyc, none, false⟩
          let s := coreBytes c 11 len (coreBytes c 9 (64 * packetFlits len) (coreEv c 0x20 1 s))
          retire c { k with puts := k.puts ++ [s.nextPkt] } { s with packets := s.packets ++ [pkt], nextPkt := s.nextPkt + 1 }) s))

def execPndCnt (c : CoreId) (w : IWord) (s : State) : Host.Outcome State Fault Refusal :=
  Issued 5 0x04 c w s (Next (issue c [pRd, (0, 4)] [] w (fun k s =>
    retire c (writeS (fRd w) (BitVec.ofNat 64 (pondLanded s c (wf w 0 4))) aluLat k) s) s (fRd w)))

def execPndWaitn (c : CoreId) (w : IWord) (s : State) : Host.Outcome State Fault Refusal :=
  Issued 5 0x05 c w s (Next (issue c [pRa, (0, 4)] [fRa w] w (fun k s =>
    let p := wf w 0 4
    if pondState s c p ≠ pondOpen then coreFault c k.pc 0x2B s
    else if pondLanded s c p < (sreg k (fRa w)).toNat then holdCycle c s
    else retire c k s) s))

def execPndFence (c : CoreId) (w : IWord) (s : State) : Host.Outcome State Fault Refusal :=
  Issued 5 0x06 c w s (Next (issue c [pRd] [] w (fun k s =>
    if k.puts.isEmpty then retire c (writeS (fRd w) (BitVec.ofNat 64 k.refusals) aluLat { k with refusals := 0 }) s
    else holdCycle c s) s (fRd w)))

/-! ## Event counters, by R210 and R211 -/

/-- Home Hedge number of a counter. -/
def ctrHome (i : Nat) : Nat := i / 128

/-- A Hedge number may signal or wait on a counter: it is the home number, or the home number admits it (R210). -/
def ctrAdmits (s : State) (hedge i : Nat) : Bool :=
  hedge == ctrHome i || (getF s (hdgPage (ctrHome i)) Hdg.evtAdmit).testBit hedge

/-- Adds to a counter modulo 2^64 (R211). -/
def ctrAdd (i v : Nat) (s : State) : State := { s with evt := tblPut 0 s.evt i ((tblGet 0 s.evt i + v) % 2 ^ 64) }

/-- Replaces a counter's value. -/
def ctrSet (i v : Nat) (s : State) : State := { s with evt := tblPut 0 s.evt i (v % 2 ^ 64) }

/-! ## Packets at the destination -/

/-- The Pond threshold of R151 after a landing: once per opening, bit p of BLK_ISR and, where enabled, one increment of the named
counter under the checks of R210. -/
def pondThreshold (c p : Nat) (s : State) : State :=
  let k := getCore s c
  let arm := tblGet {} k.ponds p
  if arm.fired ∨ arm.thresh = 0 ∨ pondState s c p ≠ pondOpen ∨ pondLanded s c p < arm.thresh then s
  else
    let s := setIsr (spmPage c) p (putCore c { k with ponds := tblPut {} k.ponds p { arm with fired := true } } s)
    if arm.evtEn = false then s
    else if ctrAdmits s ((hedgeOfCore s c).getD 0) arm.evtCtr then ctrAdd arm.evtCtr 1 s
    else addF (hdgPage (ctrHome arm.evtCtr)) Hdg.evtDeniedCnt 1 s

/-- The destination is in service for a Hedge: its plot is bound and neither disabled, being scrubbed nor retained (check 2 of
R149); during S7 every site in service counts. -/
def dstInService (s : State) (c : Nat) : Bool :=
  (siteOf s c).isSome &&
    (getF s bupPage Bup.stage == 7 && getF s bupPage Bup.state == 0 ||
      match hedgeOfCore s c with
      | none => false
      | some h => match heldState s h with
        | .retained | .scrubbing | .unbound => false
        | _ => true)

/-- The first failing check of R149, or none. -/
def pondCheck (s : State) (p : Packet) (parityBad : Bool) : Option Nat :=
  let c := p.dst
  let frozen : Bool := match hedgeOfCore s c with
    | some h => (getHedge s h).state == .frozen
    | none => false
  if parityBad then some 0x01
  else if dstInService s c = false then some 0x02
  else if getF s (spmPage c) Spm.srcHedge p.pond ≠ p.hedge then some 0x03
  else if frozen then some 0x04
  else if pondState s c p.pond ≠ pondOpen then some 0x05
  else if getF s (spmPage c) Spm.gen p.pond ≠ p.gen then some 0x06
  else if 64 * getF s (spmPage c) Spm.len64 p.pond < p.off + p.bytes.length then some 0x07
  else none

/-- Replaces a packet. -/
def putPacket (p : Packet) (s : State) : State :=
  { s with packets := s.packets.map (fun q => if q.ident = p.ident then p else q) }

def findPacket (s : State) (ident : Nat) : Option Packet := s.packets.find? (fun p => p.ident == ident)

def dropPacket (ident : Nat) (s : State) : State := { s with packets := s.packets.filter (fun p => p.ident != ident) }

/-- The answer to a packet, at the core it was for: an RSP packet back to its sender. -/
def answerPacket (p : Packet) (cause : Nat) : Packet := { p with phase := .moving none, port := 4, answer := some cause }

/-- A request at its destination's ejection port. -/
def atCheck (p : Packet) : Bool :=
  p.answer.isNone && p.row == coreRow p.dst && p.col == coreCol p.dst && (match p.phase with
    | .moving _ => true
    | _ => false)

/-- POND_WRITE_PACKET (R149, R150, R152): a packet at its destination is checked whole; an accepted one lands, is counted and is
acknowledged, a refused one is recorded there and answered with its cause. A core in retention is woken first (R146). -/
def pondWrite (ident : Nat) (parityBad : Bool) (s : State) : State :=
  match findPacket s ident with
  | none => s
  | some p =>
    if atCheck p = false then s
    else if asleep s p.dst then wakeCluster (clusterOfCore s p.dst) s
    else
      let c := p.dst
      let pg := spmPage c
      let s := coreBytes c 9 64 (coreBytes c 4 (64 * p.flits) s)
      match pondCheck s p parityBad with
      | some cause =>
        let s := if cause = 0x01 then setErr pg Spm.ePayloadParity 0 0 s else s
        let s := coreEv c 0x22 1 (addF pg Spm.dropCnt 1 s)
        let s := setF pg Spm.dropLast (cause + p.pond * 2 ^ 8 + p.src * 2 ^ 12 + p.hedge * 2 ^ 24) s
        putPacket (answerPacket p cause) s
      | none =>
        let s := coreBytes c 10 p.bytes.length (spmWrite c (64 * getF s pg Spm.base64 p.pond + p.off) p.bytes s)
        let s := addSat pg Spm.landed p.bytes.length s p.pond
        pondThreshold c p.pond (putPacket (answerPacket p 0) s)

def execPondWritePacket (ident : Nat) (parityBad : Bool) (s : State) : Host.Outcome State Fault Refusal :=
  Next (pondWrite ident parityBad s)

/-- POND_ACK (R152): the answer reaches the sender's put unit. A refusal is counted and recorded; a payload-parity refusal is UC
against the sender's Hedge. An answer to a sender that has abandoned its PUT is discarded. -/
def pondAck (ident : Nat) (s : State) : State :=
  match findPacket s ident with
  | none => s
  | some p =>
    match p.answer with
    | none => s
    | some cause =>
      if p.phase ≠ .moving none ∨ p.row ≠ coreRow p.src ∨ p.col ≠ coreCol p.src then s
      else
        let s := coreBytes p.src 4 64 (dropPacket ident s)
        let k := getCore s p.src
        if ident ∉ k.puts then s
        else if cause = 0 then putCore p.src { k with puts := k.puts.filter (· != ident) } s
        else
          let s := putCore p.src { k with puts := k.puts.filter (· != ident), refusals := k.refusals + 1 } (coreEv p.src 0x21 1 s)
          let s := addF (spmPage p.src) Spm.nakCnt 1 s
          let s := setF (spmPage p.src) Spm.nakLast (cause + p.pond * 2 ^ 8 + p.dst * 2 ^ 12 + p.gen * 2 ^ 24) s
          if cause = 0x01 then reportUc (pgSpm p.src) Spm.ePayloadParity (hedgeOfCore s p.src) p.src none false s else s

def execPondAck (ident : Nat) (s : State) : Host.Outcome State Fault Refusal := Next (pondAck ident s)

end Sys2Proof.Machine
end

