-- ==== Sys2Proof/Machine/CoreSync.lean ====
section
/-!
DEFINITION. Fences, barriers, step end and step start, by R99, R102, R104 and R128.
-/
namespace Sys2Proof.Machine

/-- Every earlier write of every unit of the core is complete (R102): no drain, set output or stream receive is outstanding. A
gather copy writes at issue. -/
def writesDone (k : Core) : Bool :=
  k.snaps.isEmpty && !k.ops.any (fun o => o.drain) && k.setq.isEmpty && !k.strs.any (fun o => o.recv)

def execSynFence (c : CoreId) (w : IWord) (s : State) : Host.Outcome State Fault Refusal :=
  Issued 6 0x01 c w s (Next (issue c [] [] w (fun k s => if writesDone k then retire c k s else holdCycle c s) s))

/-- SYN.BAR counts its issue; the core then waits for the barrier's token (R128). -/
def execSynBar (c : CoreId) (w : IWord) (s : State) : Host.Outcome State Fault Refusal :=
  Issued 6 0x02 c w s (Next (issue c [(0, 2)] [] w (fun k s =>
    let b := wf w 0 2
    retire c { k with bars := tblPut 0 k.bars b (tblGet 0 k.bars b + 1), barWait := some b } s) s))

/-- BARRIER_TOKEN: a core that waits in barrier b goes on once every logical core of its Hedge has issued the barrier as many
times; a core in FAULT or FROZEN releases none (R128). -/
def execBarrierToken (c : CoreId) (b : Fin 4) (s : State) : Host.Outcome State Fault Refusal :=
  let k := getCore s c
  let cores := match hedgeOfCore s c with
    | some h => (hedgeCores (getHedge s h)).filter (fun x => (siteOf s x).isSome)
    | none => []
  let all := cores.all (fun x => decide (tblGet 0 k.bars b.val ≤ tblGet 0 (getCore s x).bars b.val))
  Next (if k.mode = .run ∧ k.barWait = some b.val ∧ all = true then putCore c { k with barWait := none } s else s)

/-- SYN.DONE enters DONE once every unit is idle and every PUT is answered (R128). -/
def execSynDone (c : CoreId) (w : IWord) (s : State) : Host.Outcome State Fault Refusal :=
  Issued 6 0x03 c w s (Next (issue c [] [] w (fun k s =>
    if k.ops.isEmpty && k.snaps.isEmpty && k.setq.isEmpty && k.strs.isEmpty && k.puts.isEmpty then
      putCore c { advance k with mode := .done } s
    else holdCycle c s) s))

/-- The core at step start (R99 steps 2 to 4): registers, vector state, loop stack, gather list, tiles and row statistics reset,
free of damage, s1 holding the step argument, and the counts of the attempt cleared. Descriptors and the scratchpad keep their values. -/
def stepReset (entry arg : Nat) (k : Core) : Core :=
  { abandon k with
    entry := entry, arg := arg, sregs := tblPut 0 [] 1 (BitVec.ofNat 64 arg), vregs := [], vl := 256, loops := [], ready := [],
    regBad := [], slots := [], slotBad := [], stats := (List.range 128).map (fun r => (r, freshStat)), cyc := 0 }

end Sys2Proof.Machine
end

