-- ==== Sys2Proof/Machine/Scratchpad.lean ====
section
/-!
DEFINITION. The scratchpad patrol (R145) and the scrub of a Hedge's plots (R156 to R158).
-/
namespace Sys2Proof.Machine

/-- The patrol's outcome on one damaged word: a single-bit error is corrected and counted; an uncorrectable word is poisoned,
sets PATROL_UC, and freezes a Hedge that is running a step (R145). SPM_UC and PATROL_UC share the address registers: the first word of the bit that is set later
takes them (DESIGN CHOICE). -/
def patrolMeet (c : Nat) (e : Nat × Nat) (s : State) : State :=
  let off := e.1 - spmBase c
  if e.2 = 1 then
    reportCe (pgSpm c) Spm.eSpmCe (siteOf s c) off 0 (addF (spmPage c) Spm.ceCnt 1 (correct e.1 s))
  else
    let origin := if e.2 = 2 then siteOf s c else none
    let first := !((getF s (spmPage c) Hdr.err).testBit Spm.ePatrolUc)
    let s := if e.2 = 2 then addF (spmPage c) Spm.ucCnt 1 (poison e.1 s) else s
    let s := if first then captureErr (spmPage c) off 0 s else s
    reportUc (pgSpm c) Spm.ePatrolUc (hedgeOfCore s c) c origin false (setErrBit (spmPage c) Spm.ePatrolUc s)

/-- SPM_PATROL (R145): one granule of every bank, which is the aligned 2 KiB block at the patrol's position; the position moves
on, and a full pass counts a sweep. The patrol pauses while the cluster's clock is stopped. -/
def patrol (c : Nat) (found : WordFault) (s : State) : State :=
  if clkState s (clusterOfCore s c) ≠ 1 then s
  else
    let pos := getF s (spmPage c) Spm.patrolPos
    let base := spmBase c + 2048 * pos
    let s := match found with
      | .good => s
      | .single i => damaged (base + 8 * i.val) 1 s
      | .double i => damaged (base + 8 * i.val) 2 s
    let s := (damageIn s base 2048).foldl (fun s e => patrolMeet c e s) s
    let s := setF (spmPage c) Spm.patrolPos ((pos + 1) % 2048) s
    if pos + 1 = 2048 then addF (spmPage c) Spm.patrolSweeps 1 s else s

def execSpmPatrol (c : CoreId) (found : WordFault) (s : State) : Host.Outcome State Fault Refusal := Next (patrol c found s)

/-! ## Scrub -/

/-- The private state of a scrubbed core (R156): everything zero, VL at 256, tiles +0 and row statistics fresh. -/
def scrubbedCore : Core :=
  { mode := .idle, stats := (List.range 128).map (fun r => (r, freshStat)) }

/-- The pages of a core's window. -/
def corePages (s : State) (c : Nat) : List Nat :=
  [rtrPage (routingSite s c), arrPage c, spmPage c, vecPage c, seqPage c, tagPage c, bankBase c]

/-- Status, enables, errors and captures of a core's pages at reset: after a scrub any connection may read them, and they show nothing of the job (R155). -/
def clearHeaders (c : Nat) (s : State) : State :=
  (corePages s c).foldl (fun s pg => resetRange (pg + 0x08) (pg + 0x28) s) s

/-- Scrubs one logical core: its scratchpad, tile-program memory, tiles, registers, descriptors, unit counters, channel table and the status of its pages.
RAMP_LEN, which R156 does not list, keeps its value (DESIGN CHOICE). A core that is not in service stays as it is. -/
def scrubCore (c : Nat) (s : State) : State :=
  if (siteOf s c).isNone then s
  else
    let s := memZero (spmBase c) (spmBase c + spmSize) s
    let s := clearHeaders c (clearBank c false (markIdle [c] (putCore c scrubbedCore s)))
    let ramp := getF s (arrPage c) Arr.rampLen
    let s := resetRange (arrPage c + 0x40) (arrPage c + 0x1000) s
    let s := setF (arrPage c) Arr.rampLen ramp s
    let s := resetRange (spmPage c + 0x44) (spmPage c + 0x1000) s
    let s := resetRange (vecPage c + 0x40) (vecPage c + 0x1000) s
    let s := resetRange (rtrPage (routingSite s c) + 0x100) (rtrPage (routingSite s c) + 0x1000) s
    let lo := 8 * (5 * c)
    { s with flits := tblDrop lo (lo + 40) s.flits, rest := tblDrop (8 * c) (8 * c + 8) s.rest }

/-- Sets SPM_STAT.SCRUB of every core of a Hedge: 0 none, 1 SCRUBBING, 2 RETAINED (R160). -/
def markScrub (cores : List Nat) (v : Nat) (s : State) : State :=
  cores.foldl (fun s c => setF (spmPage c) Spm.scrub v s) s

end Sys2Proof.Machine
end

