-- ==== Sys2Proof/Machine/Fabric.lean ====
section
/-!
DEFINITION. The fabric, by R165 to R197: dynamic packets hop by hop, static channels flit by flit, the routers' plot-to-Hedge
tables, and the flush of a Hedge's channels.
-/
namespace Sys2Proof.Machine

/-! ## The plot-to-Hedge table (R174, R194) -/

/-- The byte of plot p: HEDGE, BOUND, DISABLED. -/
def plotByte (s : State) (p : Nat) : Nat :=
  if p ∈ s.disabled then 0x40
  else match hedgeOfPlot s p with
    | some h => h + 0x20
    | none => 0

/-- The table the Fabric Engine holds. -/
def plotTable (s : State) : List Nat := (List.range 32).map (plotByte s)

/-- Every router takes the Fabric Engine's table, before a binding or an unbinding completes. -/
def broadcastPlots (s : State) : State := { s with rtrAll := plotTable s, rtrOwn := [] }

/-- The table a router holds. -/
def routerTable (s : State) (p : Nat) : List Nat := tblGet s.rtrAll s.rtrOwn p

/-- PLOT_HEDGE_UPDATE: a CTL packet brings one router the Fabric Engine's table. -/
def execPlotHedgeUpdate (p : SiteId) (s : State) : Host.Outcome State Fault Refusal :=
  Next { s with rtrOwn := tblPut s.rtrAll s.rtrOwn p (plotTable s) }

/-! ## Physical paths (R15, R16, R18, R26, R166) -/

/-- Logical columns whose routing site is the site p (R538). -/
def columnsAt (s : State) (p : Nat) : List Nat :=
  ((List.range 8).map (fun i => 8 * (siteCol p / 9) + i)).filter (fun col => routingSite s (coreAt (siteRow p) col) == p)

/-- A working site in pass-through mode: the routing site of no position (R16, R507, R538). -/
def passThrough (s : State) (p : Nat) : Bool := decide (p ∉ s.holes) && !clusterGone s (clusterOfSite p) && (columnsAt s p).isEmpty

/-- The routers a flit enters on the way from one routing site to another beside it, each with its input: 0 to 5 for N, S, E, W, E-skip and W-skip. Positions
that share a site use no link; a broken segment has none (R166, R177, R538). -/
def linkPath (s : State) (a b : Nat) : Option (List (Nat × Nat)) :=
  if a = b then some []
  else if siteRow a < siteRow b then some [(b, 0)]
  else if siteRow b < siteRow a then some [(b, 1)]
  else if b = a + 1 then some [(b, 3)]
  else if a = b + 1 then some [(b, 2)]
  else if b = a + 2 then some [(b, 5)]
  else if a = b + 2 then some [(b, 4)]
  else if b = a + 3 ∧ a + 1 ∉ s.holes then some [(a + 1, 3), (b, 5)]
  else if a = b + 3 ∧ b + 1 ∉ s.holes then some [(b + 1, 4), (b, 2)]
  else none

/-- The links of a path from a router: who sends, who receives, and the input. -/
def pathLinks (a : Nat) : List (Nat × Nat) → List (Nat × Nat × Nat)
  | [] => []
  | (p, i) :: t => (a, p, i) :: pathLinks p t

/-- A path code from a site to the routing site beside it in its row (R192). -/
def sidePath (s : State) (a b : Nat) : Nat :=
  match linkPath s a b with
  | some [_] => if max a b = min a b + 1 then 0 else 1
  | some [_, _] => 2
  | _ => 3

/-- A select code toward the routing site of the row above or below (R18). -/
def selCode (a b : Nat) : Nat := if a = b then 0 else if b = a + 1 then 1 else if b + 1 = a then 2 else 3

/-- RTR_CFG from the logical map, once bring-up has written it (R166, R192). A router of several positions shows the paths of its outer ones. For the router
of a hole the spec names no paths: it reads 0 (DESIGN CHOICE). -/
def rtrCfg (s : State) (p : Nat) : Nat :=
  if s.mapped = false then 0 else
  let row := siteRow p
  let cols := columnsAt s p
  match cols with
  | [] => if passThrough s p then (if siteAt row (siteCol p + 1) ∈ s.holes ∧ siteCol p < 71 then 1 else 15) + 15 * 2 ^ 4 + 2 ^ 8 else 0
  | lo :: _ =>
    let hi := cols.getLast?.getD lo
    let at_ := fun r c => siteCol (routingSite s (coreAt r c))
    let e := if hi = 63 then 3 else sidePath s p (routingSite s (coreAt row (hi + 1)))
    let w := if lo = 0 then 3 else sidePath s p (routingSite s (coreAt row (lo - 1)))
    let n := if row = 0 then 3 else selCode (siteCol p) (at_ (row - 1) lo)
    let z := if row = 63 then 3 else selCode (siteCol p) (at_ (row + 1) lo)
    e + w * 2 ^ 2 + n * 2 ^ 4 + z * 2 ^ 6

/-- The edge routers (R25): package k on the north and south edges, one a row on the others. -/
inductive EdgeRouter where
  | north (k : Nat) | south (k : Nat) | west (row : Nat) | east (row : Nat)
  deriving DecidableEq, Repr

/-- The edge router that serves a Mere channel. -/
def channelEdge (ch : Nat) : EdgeRouter := if ch < 96 then .north (ch / 4) else .south (ch / 4 - 24)

/-- The number of an edge router: 24 north, 24 south, 64 west and 64 east. -/
def edgeNumber : EdgeRouter → Nat
  | .north k => k
  | .south k => 24 + k
  | .west row => 48 + row
  | .east row => 112 + row

/-- A failed edge router is bypassed on its chain (R407). -/
def edgeFailed (s : State) (e : EdgeRouter) : Bool := decide (edgeNumber e ∈ s.boot.badEdge)

/-- The routing site a north or south edge router attaches to: at pcol 3k + 1, unless that is a hole, its cluster is dark, or the router has failed. -/
def packageSite (s : State) (row k : Nat) : Option Nat :=
  let p := siteAt row (3 * k + 1)
  if p ∈ s.holes ∨ clusterGone s (clusterOfSite p) = true ∨ edgeFailed s (if row = 0 then .north k else .south k) = true then none else some p

/-- The routers of a chain of n from number k on, in the order in which one is looked for (R26): up to the end of the chain, then down (DESIGN CHOICE: the
rule says only 'the next'). -/
def chainFrom (n k : Nat) : List Nat := (List.range (n - k)).map (· + k) ++ (List.range k).reverse

/-- The position at which a north or south edge router reaches the mesh: its own, or by the chain that of the next edge router that has one. -/
def packageHome (s : State) (row k : Nat) : Option Nat :=
  (chainFrom 24 k).findSome? (fun j => (packageSite s row j).bind (fun p => (columnsAt s p).head?.map (coreAt row)))

/-- The logical position at which an edge router reaches the mesh. -/
def edgeHome (s : State) : EdgeRouter → Option Nat
  | .north k => packageHome s 0 k
  | .south k => packageHome s 63 k
  | .west row => ((chainFrom 64 row).find? (fun r => !edgeFailed s (.west r))).map (fun r => coreAt r 0)
  | .east row => ((chainFrom 64 row).find? (fun r => !edgeFailed s (.east r))).map (fun r => coreAt r 63)

/-! ## Skid buffers and holds (R169, R170, R180, R352, R356) -/

/-- The skid buffer of an input. -/
def getSkid (s : State) (site port : Nat) : Skid := tblGet {} s.skids (8 * site + port)

/-- Moves an occupancy, held between 0 and 6. -/
def moveSkid (site port sender : Nat) (d : Int) (s : State) : State :=
  let k := getSkid s site port
  let occ := min 6 ((k.occ : Int) + d).toNat
  { s with skids := tblPut {} s.skids (8 * site + port) (if occ = 3 then {} else ⟨occ, sender⟩) }

/-- Inter-cluster links withhold credits from E − 4 to E + 4 of a step change. -/
def creditPause (s : State) : Bool :=
  (match s.pwr.arm with
    | some a => decide (a.sent + a.count ≤ s.now + 4)
    | none => false) ||
  (match s.pwr.switched with
    | some e => decide (s.now ≤ e + 4)
    | none => false)

/-- A router takes no flit and sends none: its cluster is not clocked, or it holds its inputs for a change of its map. -/
def routerHeld (s : State) (p : Nat) : Bool := clkState s (clusterOfSite p) != 1 || decide (s.now < tblGet 0 s.mapHold p)

/-- Why flits may not cross a link now. -/
def linkHeld (s : State) (e : Nat × Nat × Nat) : Bool :=
  routerHeld s e.1 || routerHeld s e.2.1 || (creditPause s && clusterOfSite e.1 != clusterOfSite e.2.1)

/-- Back-pressure at an input: the sender withholds one slot, in which the buffer moves toward its centre. -/
def backPressure (e : Nat × Nat × Nat) (s : State) : State :=
  let s := moveSkid e.2.1 e.2.2 (clusterOfSite e.1) (-1) (addF (rtrPage e.2.1) Rtr.bpCyc 1 s)
  match coreOfSite s e.2.1 with
  | some c => coreEv c 0x2A 1 s
  | none => s

/-- Flits cross a link: an activity of both clusters. -/
def sendOver (n : Nat) (s : State) (e : Nat × Nat × Nat) : State :=
  let key := 8 * e.2.1 + e.2.2
  touch (clusterOfSite e.2.1) (touch (clusterOfSite e.1) { s with linkSent := tblPut 0 s.linkSent key (tblGet 0 s.linkSent key + n) })

/-- Flits try to cross from one routing site to another: whether they do, and the state. A router whose cluster does not run is asked to wake, and the flits
wait upstream (R16, R352). -/
def crossLinks (a b n : Nat) (s : State) : Bool × State :=
  match linkPath s a b with
  | none => (false, s)
  | some path =>
    let links := pathLinks a path
    if links.any (linkHeld s) then (false, wakeAll (links.flatMap (fun e => [clusterOfSite e.1, clusterOfSite e.2.1])) s)
    else match links.find? (fun e => (getSkid s e.2.1 e.2.2).occ == 6) with
      | some e => (false, backPressure e s)
      | none => (true, links.foldl (sendOver n) s)

/-- One reference edge of f local cycles: every cycle in which no flit was written moved an occupancy one step toward 3. -/
def recentre (f : Nat) (s : State) : State :=
  let runs := fun cl => decide (288 ≤ cl) || clkState s cl == 1
  let idle := fun (e : Nat × Skid) => if runs e.2.sender then f - tblGet 0 s.linkSent e.1 else 0
  { s with
    skids := s.skids.filterMap (fun e =>
      let occ := if e.2.occ < 3 then min 3 (e.2.occ + idle e) else max 3 (e.2.occ - idle e)
      if occ = 3 then none else some (e.1, { e.2 with occ := occ }))
    linkSent := [] }

/-! ## Dynamic packets (R175 to R177) -/

/-- Two sites next to each other in a row, from physical column p on, are both holes: a broken segment (R177). -/
def brokenSeg (s : State) (row p : Nat) : Bool :=
  decide (siteAt row p ∈ s.holes) && decide (siteAt row (p + 1) ∈ s.holes)

/-- A row leg from logical column a to column b would cross a broken segment. -/
def legBroken (s : State) (row a b : Nat) : Bool :=
  let x := siteCol (routingSite s (coreAt row a))
  let y := siteCol (routingSite s (coreAt row b))
  let lo := min x y
  (List.range (max x y - lo)).any (fun i => brokenSeg s row (lo + i))

/-- One step of a coordinate toward another. -/
def toward (a b : Nat) : Nat := if a < b then a + 1 else a - 1

/-- The packet's next position and route (R175, R177): along its row first, then along its column; over a broken segment by the
detour row, and back to the normal set in the destination's column. -/
def nextHop (s : State) (p : Packet) (via : Option Nat) : Packet :=
  let dr := coreRow p.target
  let dc := coreCol p.target
  match via with
  | some v =>
    if p.row ≠ v then { p with row := toward p.row v, phase := .moving (some v) }
    else if p.col ≠ dc then
      let col := toward p.col dc
      { p with col := col, phase := .moving (if col = dc then none else some v) }
    else { p with phase := .moving none }
  | none =>
    if p.col ≠ dc then
      let v := tblGet p.row s.detour p.row
      if legBroken s p.row p.col dc = true ∧ v ≠ p.row then { p with row := toward p.row v, phase := .moving (some v) }
      else { p with col := toward p.col dc }
    else if p.row ≠ dr then { p with row := toward p.row dr }
    else p

/-! ## Links that fail persistently (R407, R416) -/

/-- An error on an input of a router: the third within 10 s fails the link, and the east end of an E–W link, or the south end of an
N–S link, is to be retired. `near` is the router's own site and `far` the one the input comes from; ports are N, S, E, W. -/
def linkFault (near far port : Nat) (s : State) : State :=
  let key := 8 * near + port
  let times := (tblGet [] s.linkErrs key).filter (fun t => decide (s.now < t + 10 * secEdges)) ++ [s.now]
  let s := { s with linkErrs := tblPut [] s.linkErrs key times }
  if times.length < 3 ∨ 4 ≤ port then s
  else
    let site := if port = 0 ∨ port = 3 then near else far
    { s with linkErrs := tblErase key s.linkErrs, suspects := s.suspects ++ [site] }

/-- The router page of a routing position. -/
def posRouter (s : State) (row col : Nat) : Nat := routingSite s (coreAt row col)

/-- The input port a packet enters by after a step from one position to another: N, S, E or W. -/
def entryPort (p q : Packet) : Nat :=
  if p.row < q.row then 0 else if q.row < p.row then 1 else if q.col < p.col then 2 else if p.col < q.col then 3 else p.port

/-- The Hedge of the router that holds a packet is the packet's source Hedge or its destination Hedge, by the router's own table (R173, R174). -/
def routerLocal (s : State) (p : Packet) : Bool :=
  let t := routerTable s (posRouter s p.row p.col)
  let own := t.getD (plotOfCore (coreAt p.row p.col)) 0
  own.testBit 5 && (own % 32 == p.hedge || (!p.edge && own == t.getD (plotOfCore p.dst) 0))

/-- The buffer set a packet uses at a router: 0 local, 1 transit, 2 escape. -/
def bufferSet (s : State) (p : Packet) : Nat :=
  match p.phase with
  | .moving (some _) => 2
  | _ => if routerLocal s p then 0 else 1

/-- Flits of each dynamic set for each class at an input (R173). -/
def setDepth (set : Nat) : Nat := if set = 2 then 5 else 6

/-- The set and class of a packet at the input it comes in by have room for its flits. A packet still at its sender waits in the put unit. -/
def hasRoom (s : State) (p : Packet) : Bool :=
  let site := posRouter s p.row p.col
  let here := s.packets.filter (fun q => q.ident != p.ident && decide (q.phase ≠ .lost ∧ q.port ≠ 4) && posRouter s q.row q.col == site && q.port == p.port &&
    q.answer.isSome == p.answer.isSome && bufferSet s q == bufferSet s p)
  decide (here.foldl (fun n q => n + q.flits) p.flits ≤ setDepth (bufferSet s p))

/-- Flits that a router forwards to the next one, with the bytes at both ports (R485, R491). A router whose Hedge is neither the packet's source nor its
destination counts them as transit. Positions that share a routing site have no link between them (R538). -/
def countHop (n : Nat) (p q : Packet) (s : State) : State :=
  let here := coreAt p.row p.col
  let there := coreAt q.row q.col
  let next := posRouter s q.row q.col
  let s := match q.phase with
    | .moving (some _) => setF (rtrPage next) Rtr.escapeUsed 1 s
    | _ => s
  if posRouter s p.row p.col = next then s
  else
    let out := if q.row < p.row then 0 else if p.row < q.row then 1 else if p.col < q.col then 2 else 3
    let s := coreEv here 0x28 n s
    let s := if routerLocal s p then s else coreEv here 0x29 n s
    coreBytes there (5 + entryPort p q) (64 * n) (coreBytes here out (64 * n) s)

/-- A packet at the routing site of the core or edge router it is for. -/
def arrived (p : Packet) : Bool := p.row == coreRow p.target && p.col == coreCol p.target

/-- An error on the input a packet came in by. -/
def inputFault (p : Packet) (s : State) : State :=
  let far := match p.port with
    | 0 => posRouter s (p.row - 1) p.col
    | 1 => posRouter s (min 63 (p.row + 1)) p.col
    | 2 => posRouter s p.row (min 63 (p.col + 1))
    | _ => posRouter s p.row (p.col - 1)
  linkFault (posRouter s p.row p.col) far p.port s

/-- A header error at a router: a single-bit one is corrected and counted, a credit error on a dynamic set is a CE (R197). -/
def hopError (p : Packet) (header : LineError) (s : State) : State :=
  let site := posRouter s p.row p.col
  match header with
  | .single => reportCe (pgRtr site) Rtr.eHdrCe (some site) 0 0 (addF (rtrPage site) Rtr.hdrCeCnt 1 s)
  | .credit => inputFault p (reportCe (pgRtr site) Rtr.eCreditErr (some site) 0 0 s)
  | _ => s

/-- DYNAMIC_PACKET_HOP: one packet crosses one router, once the link and the buffers ahead take it. A double-bit header error discards the packet (R186,
R197). -/
def packetHop (ident : Nat) (header : LineError) (s : State) : State :=
  match findPacket s ident with
  | none => s
  | some p =>
    match p.phase with
    | .moving via =>
      let site := posRouter s p.row p.col
      if header = .double then
        let s := addF (rtrPage site) Rtr.dropCnt 1 (setErr (rtrPage site) Rtr.eHdrUc 0 0 s)
        inputFault p (putPacket { p with phase := .lost } (chargeUc none site s))
      else if arrived p then hopError p header s
      else
        let n := nextHop s p via
        let q := { n with hops := p.hops + 1, port := entryPort p n }
        if hasRoom s q = false then s
        else
          let x := crossLinks site (posRouter s q.row q.col) p.flits s
          if x.1 then putPacket q (countHop p.flits p q (hopError p header x.2)) else x.2
    | _ => s

/-- The packets a failed router holds are lost with it (R183). -/
def losePackets (site : Nat) (s : State) : State :=
  { s with packets := s.packets.map (fun p =>
      if posRouter s p.row p.col = site ∧ (p.hops ≠ 0 ∨ p.answer.isSome) then { p with phase := .lost } else p) }

/-! ## Engine packets (R172, R174, R175) -/

/-- Flits reach a router: an activity of its cluster, or a request for its wake (R16, R352). -/
def reachRouter (site : Nat) (s : State) : State :=
  let cl := clusterOfSite site
  if clkState s cl = 1 then touch cl s else wakeCluster cl s

/-- A packet crosses every router from where it stands to its target. -/
def carry (n : Nat) : Nat → Packet → State → State
  | 0, _, s => s
  | steps + 1, p, s =>
    match p.phase with
    | .moving via =>
      if arrived p then s
      else
        let q := nextHop s p via
        carry n steps { q with port := entryPort p q } (countHop n p q (reachRouter (posRouter s q.row q.col) s))
    | _ => s

/-- Flits of an engine's packets between two positions. An engine waits for its packets within its own command, so that they cross at once (DESIGN CHOICE). -/
def carryEngine (src dst hedge n : Nat) (edge : Bool) (s : State) : State :=
  carry n 256 { ident := 0, src := src, hedge := hedge, dst := dst, pond := 0, gen := 0, off := 0, bytes := [], row := coreRow src, col := coreCol src,
                phase := .moving none, hops := 0, sent := 0, edge := edge } s

/-- Packets and flits of n bytes from an address, in packets of a 256-byte block each (DESIGN CHOICE: the spec bounds a packet at 5 flits and does not say how
an engine cuts a range). -/
def rangePackets (a n : Nat) : Nat × Nat :=
  if n = 0 then (0, 0)
  else
    let blocks := (List.range ((a + n - 1) / 256 + 1 - a / 256)).map (fun i => min (256 * (a / 256 + i + 1)) (a + n) - max (256 * (a / 256 + i)) a)
    (blocks.length, blocks.foldl (fun t b => t + packetFlits b) 0)

/-- The packets of an engine's access to a scratchpad: a write is REQ packets with the data, answered by RSP packets of one flit; a read is REQ packets of one
flit, answered by RSP packets with the data. -/
def enginePackets (e : EdgeRouter) (hedge a n : Nat) (write : Bool) (s : State) : State :=
  if mereBase ≤ a then s
  else match edgeHome s e with
    | none => s
    | some home =>
      let c := a / spmSize
      let k := rangePackets a n
      let req := if write then k.2 else k.1
      let rsp := if write then k.1 else k.2
      let s := coreBytes c 4 (64 * req) (carryEngine home c hedge req false s)
      carryEngine c home hedge rsp true (coreBytes c 9 (64 * rsp) s)

/-! ## Static channels (R120, R171, R178, R182) -/

/-- Key of a static buffer: input port 0 to 4 (N, S, E, W, CORE) of a core's router, and a channel (R173). -/
def flitKey (c port ch : Nat) : Nat := 8 * (5 * c + port) + ch

def flitsAt (s : State) (c port ch : Nat) : List (List Byte) := tblGet [] s.flits (flitKey c port ch)

def putFlits (c port ch : Nat) (l : List (List Byte)) (s : State) : State :=
  { s with flits := tblPut [] s.flits (flitKey c port ch) l }

/-- Flits a static buffer holds for one channel (R173). -/
def flitDepth : Nat := 4

/-- The core a link leads to, and the port it enters there: N to S, S to N, E to W, W to E. -/
def linkOf (c o : Nat) : Option (Nat × Nat) :=
  let r := coreRow c
  let l := coreCol c
  match o with
  | 0 => if r = 0 then none else some (coreAt (r - 1) l, 1)
  | 1 => if r = 63 then none else some (coreAt (r + 1) l, 0)
  | 2 => if l = 63 then none else some (coreAt r (l + 1), 3)
  | 3 => if l = 0 then none else some (coreAt r (l - 1), 2)
  | _ => none

/-- The Hedge of a core is frozen: its flits stand where they are (R182). -/
def coreFrozen (s : State) (c : Nat) : Bool :=
  match hedgeOfCore s c with
  | some h => (getHedge s h).state == .frozen
  | none => false

/-- Bytes [pos, pos + n) of a generator's element stream. -/
def streamBytes (c : Nat) (g : List Nat) (pos n : Nat) (s : State) : List Byte × Bool × State :=
  let sz := gSize g
  let first := pos / sz
  let r := genBytes c g first ((pos + n - 1) / sz + 1 - first) s
  ((r.1.drop (pos % sz)).take n, r.2)

/-- A SEND puts its next flit into the static buffer at the core's own input when a credit is there (R120). -/
def injectFlit (c ch : Nat) (s : State) : State :=
  let k := getCore s c
  match k.strs.findIdx? (fun o => !o.recv && o.chan == ch) with
  | none => s
  | some i =>
    match k.strs[i]? with
    | none => s
    | some o =>
      let buf := flitsAt s c 4 ch
      if flitDepth ≤ buf.length then s
      else
        let n := min 64 (o.total - o.moved)
        let r := streamBytes c o.gen o.moved n s
        if r.2.1 then r.2.2
        else
          let s := r.2.2
          let k := getCore s c
          let o' := { o with moved := o.moved + n }
          let strs := if o'.moved = o'.total then k.strs.eraseIdx i else k.strs.set i o'
          coreBytes c 9 64 (putFlits c 4 ch (buf ++ [r.1]) (putCore c { k with strs := strs } s))

/-- A static-channel fault: STATIC_PARITY at the receiving site, CREDIT_ERR at the sending end, each UC (R431, R197). -/
def staticFault (c port bit info : Nat) (s : State) : State :=
  let site := routingSite s c
  let s := reportUc (pgRtr site) bit (hedgeOfCore s c) c (some site) false (setErr (rtrPage site) bit 0 info s)
  match linkOf c port with
  | some (d, _) => linkFault site (routingSite s d) port s
  | none => s

/-- STATIC_FLIT: the oldest flit that feeds channel ch of output o moves over it: across a link into the buffer downstream, or
into the core's RECVs. It needs the flit, room downstream and, at the core, an active RECV. -/
def moveFlit (c o ch : Nat) (err : FlitError) (s : State) : State :=
  if chanValid s c o ch = false then s
  else
    let port := chanInPort s c o ch
    let inCh := chanInCh s c o ch
    match flitsAt s c port inCh with
    | [] => s
    | f :: rest =>
      if err = .credit then staticFault c o Rtr.eCreditErr 0 s
      else if o = 4 then
        let k := getCore s c
        if k.strs.any (fun x => x.recv && x.chan == ch) = false then s
        else if err = .parity then staticFault c port Rtr.eStaticParity (8 * o + ch) s
        else
          let s := coreBytes c 4 64 (coreEv c 0x28 1 (putFlits c port inCh rest s))
          let r := feedRecv c ch 9 (tblGet [] s.rest (8 * c + ch) ++ f) s
          { r.2 with rest := tblPut [] r.2.rest (8 * c + ch) r.1 }
      else
        match linkOf c o with
        | none => s
        | some (d, p) =>
          let buf := flitsAt s d p ch
          if flitDepth ≤ buf.length then s
          else
            let x := crossLinks (routingSite s c) (routingSite s d) 1 s
            if x.1 then coreBytes d (5 + p) 64 (coreBytes c o 64 (coreEv c 0x28 1 (putFlits d p ch (buf ++ [f]) (putFlits c port inCh rest x.2))))
            else x.2

/-- A flit of a static channel enters or moves on; nothing moves in a frozen Hedge. -/
def staticFlit (c : Nat) (mv : FlitMove) (ch : Nat) (err : FlitError) (s : State) : State :=
  if coreFrozen s c then s
  else match mv with
    | .inject => injectFlit c ch s
    | .out o => moveFlit c o ch err s

/-- Bytes left in any static channel of the listed cores, and the receiving core of the first (R120). -/
def channelBytesLeft (s : State) (cores : List Nat) : Option Nat :=
  cores.find? (fun c =>
    (List.range 40).any (fun i => !(tblGet [] s.flits (40 * c + i)).isEmpty) ||
    (List.range 8).any (fun i => !(tblGet [] s.rest (8 * c + i)).isEmpty))

/-- The flush of R182: every held flit is discarded and every credit returns. -/
def flushChannels (cores : List Nat) (s : State) : State :=
  cores.foldl (fun s c =>
    { s with flits := tblDrop (40 * c) (40 * c + 40) s.flits, rest := tblDrop (8 * c) (8 * c + 8) s.rest }) s

end Sys2Proof.Machine
end

