-- ==== Sys2Proof/Machine/Mere.lean ====
section
/-!
DEFINITION. Mere, by R240 to R266: the interleave over the active channels, requests through the block buffer under SECDED,
the patrol, training and retirement, refresh and temperature, and the retrainings.
-/
namespace Sys2Proof.Machine

/-! ## The interleave (R242, R243) -/

def getChan (s : State) (ch : Nat) : Chan := tblGet {} s.chans ch
def putChan (ch : Nat) (k : Chan) (s : State) : State := { s with chans := tblPut {} s.chans ch k }

/-- MC_STAT.STATE codes of R262. -/
def mcTraining : Nat := 0
def mcActive : Nat := 1
def mcRetraining : Nat := 2
def mcFull : Nat := 3
def mcFailed : Nat := 4
def mcRetired : Nat := 5

def mcState (s : State) (ch : Nat) : Nat := getF s (mcPage ch) Mc.state
def setMc (ch v : Nat) (s : State) : State := setF (mcPage ch) Mc.state v s

/-- Channels in the interleave, ascending, as MERE_ACTIVE holds them. -/
def activeChans (s : State) : List Nat :=
  (List.range 192).filter (fun ch => (getF s msmPage Msm.active (ch / 32)).testBit (ch % 32))

/-- The channel of a device address. -/
def chanOf (s : State) (a : Nat) : Nat :=
  let l := activeChans s
  l.getD ((a - mereBase) / 256 % l.length) 0

/-- The device address of the 64-byte block `i` of a channel. -/
def patrolAddr (s : State) (ch i : Nat) : Nat :=
  let l := activeChans s
  mereBase + (i / 4 * l.length + l.findIdx (· == ch)) * 256 + i % 4 * 64

/-- Segments offered by `n` channels. -/
def segCountOf (n : Nat) : Nat := n * 31 / 8

/-- The end of the segments offered. -/
def mereEnd (s : State) : Nat := mereBase + getF s segPage Seg.count * 2 ^ 30

/-- A channel joins or leaves the interleave: MERE_ACTIVE, MERE_NCH. -/
def setActive (ch : Nat) (on : Bool) (s : State) : State :=
  let w := getF s msmPage Msm.active (ch / 32)
  let bit := 2 ^ (ch % 32)
  let w' := if on then w ||| bit else if w.testBit (ch % 32) then w - bit else w
  let s := setF msmPage Msm.active w' s (ch / 32)
  setF msmPage Msm.nch (activeChans s).length s

/-! ## Requests (R244 to R247) -/

/-- A request reaches the channel: it leaves power-down and self refresh, and its idle time starts again (R254). -/
def chanTouch (ch : Nat) (s : State) : State :=
  setF (mcPage ch) Mc.sref 0 (putChan ch { getChan s ch with last := s.now, powerDown := false } s)

/-- A block enters the block buffer of 64 entries; the oldest leaves. -/
def bufAdd (b : Nat) (k : Chan) : Chan := { k with buf := (b :: k.buf.filter (· != b)).take 64 }

/-- An error bit of a channel page with the first block's address since the bit was last clear (R265). The three bits share the registers: the bit set last
puts its own block there (DESIGN CHOICE). -/
def mcErr (ch bit b : Nat) (s : State) : State :=
  let s := if (getF s (mcPage ch) Hdr.err).testBit bit then s else captureErr (mcPage ch) b 0 s
  setErrBit (mcPage ch) bit s

/-- The damage of one block met by a read from the DRAM: a single-bit error is corrected, counted and written back; anything else is
poisoned and uncorrectable (R246, R247). 4 marks a block from the wrong place. The result says whether it was uncorrectable. -/
def mereMeet (hedge : Option Nat) (ch b kind : Nat) (s : State) : Bool × State :=
  match kind with
  | 0 => (false, s)
  | 1 => (false, reportCe (pgMc ch) Mc.eDataCe none b 0 (addF (mcPage ch) Mc.ceCnt 1 (correct b s)))
  | _ =>
    let s := if kind = 3 then s else addF (mcPage ch) Mc.ucCnt 1 (poison b s)
    let s := if kind = 4 then setErrBit (mcPage ch) Mc.eTagMismatch s else s
    (true, reportUcRead (pgMc ch) Mc.eDataUc hedge (b % 2 ^ 32) none (mcErr ch Mc.eDataUc b s))

/-- A read of the block at `b` for a Hedge number: whether it is good, and the state. A block in the buffer is not read again; a
channel that FAILED fails every request (R259). -/
def mereReadBlock (hedge : Option Nat) (b : Nat) (s : State) : Bool × State :=
  let ch := chanOf s b
  let s := chanTouch ch (if b ∈ (getChan s ch).buf then bankEv (chanBank ch) 0x01 2 s else s)
  if mcState s ch = mcFailed then (false, reportUcRead (pgMc ch) Mc.eDataUc hedge (b % 2 ^ 32) none (mcErr ch Mc.eDataUc b s))
  else
    let r := mereMeet hedge ch b (tblGet 0 s.damage b) s
    (!r.1, putChan ch (bufAdd b (getChan r.2 ch)) r.2)

/-- Blocks that overlap [a, a + n). -/
def blocksOf (a n : Nat) : List Nat :=
  if n = 0 then [] else (List.range ((a + n - 1) / 64 + 1 - a / 64)).map (fun i => (a / 64 + i) * 64)

/-- Reads every block of a list in turn, up to the first that fails. -/
def mereReadBlocks (hedge : Option Nat) : List Nat → State → Bool × State
  | [], s => (true, s)
  | b :: t, s =>
    let r := mereReadBlock hedge b s
    if r.1 then mereReadBlocks hedge t r.2 else r

/-- A write that its channel could not make: the block is poisoned, and the failure is an uncorrected error that no read has met (R247, R248, R266). -/
def loseWrite (bit b : Nat) (s : State) : State :=
  let ch := chanOf s b
  reportUcRead (pgMc ch) bit none (b % 2 ^ 32) none (mcErr ch bit b (addF (mcPage ch) Mc.ucCnt 1 (poison b s)))

/-- The read of a read-merge-write: the block as the DRAM holds it (R244). -/
def mergeBlock (b : Nat) (s : State) : State :=
  let ch := chanOf s b
  (mereMeet none ch b (tblGet 0 s.damage b) (bankEv (chanBank ch) 0x02 1 s)).2

/-- A half block whose partner half came within 200 ns: the two are one block write (R244). -/
def partnerHalf (s : State) (k : Chan) (a : Nat) : Bool := k.halves.any (fun e => e.1 / 64 == a / 64 && e.1 != a && decide (s.now ≤ e.2 + 20))

/-- Half writes that may still meet their partner, less those of one block. -/
def dropHalves (ch b : Nat) (s : State) : State :=
  let k := getChan s ch
  putChan ch { k with halves := k.halves.filter (fun e => e.1 / 64 != b / 64) } s

/-- A write into one block: a whole block, or the second half within 200 ns of the first, is one block write, which clears any poison; a half alone waits for
its partner, and any other part is a read-merge-write, which leaves a poisoned block poisoned (R244, R247). A FAILED channel loses the write and poisons
the block. -/
def mereWriteBlock (b : Nat) (a : Nat) (bs : List Byte) (s : State) : State :=
  let ch := chanOf s b
  let s := chanTouch ch s
  let half : Bool := bs.length == 32 && a % 32 == 0
  if mcState s ch = mcFailed then loseWrite Mc.eDataUc b s
  else if bs.length = 64 then memWrite a bs (dropHalves ch b s)
  else if half && partnerHalf s (getChan s ch) a then correct b (memWrite a bs (dropHalves ch b s))
  else if half then
    let k := getChan s ch
    memWrite a bs (putChan ch { k with halves := k.halves.filter (fun e => e.1 != a) ++ [(a, s.now)] } s)
  else memWrite a bs (mergeBlock b s)

/-- Half writes whose partner has not come within 200 ns are read-merge-writes of their blocks (R244). -/
def settleHalves (s : State) : State :=
  s.chans.foldl (fun s e =>
    let late := e.2.halves.filter (fun h => decide (h.2 + 20 < s.now))
    if late.isEmpty then s
    else
      let s := late.foldl (fun s h => mergeBlock (h.1 / 64 * 64) s) s
      putChan e.1 { getChan s e.1 with halves := e.2.halves.filter (fun h => decide (s.now ≤ h.2 + 20)) } s) s

/-- The bytes of [a, a + n) that lie in block b, given the bytes from a. -/
def blockPart (b a : Nat) (bs : List Byte) : Nat × List Byte :=
  let lo := max a b
  (lo, (bs.drop (lo - a)).take (b + 64 - lo))

/-- Granules of 32 bytes that [lo, lo + n) touches. -/
def halves (lo n : Nat) : Nat := if n = 0 then 0 else (lo + n - 1) / 32 + 1 - lo / 32

/-- Granules accepted or returned by a channel's bank, and their bytes (R483, R491). -/
def countMere (write : Bool) (b lo n : Nat) (s : State) : State :=
  let k := chanBank (chanOf s b)
  let g := halves lo n
  bankBytes k (if write then 1 else 0) (32 * g) (bankFix k (if write then 2 else 1) g s)

/-- A write of bytes to Mere, block by block. -/
def mereWrite (a : Nat) (bs : List Byte) (s : State) : State :=
  (blocksOf a bs.length).foldl (fun s b => let p := blockPart b a bs; mereWriteBlock b p.1 p.2 (countMere true b p.1 p.2.length s)) s

/-- A read of `n` bytes of Mere: the bytes and whether every block was good. -/
def mereRead (hedge : Option Nat) (a n : Nat) (s : State) : Bool × List Byte × State :=
  let r := mereReadBlocks hedge (blocksOf a n) s
  let t := (blocksOf a n).foldl (fun s b => countMere false b (max a b) (min (a + n) (b + 64) - max a b) s) r.2
  (r.1, memList t a n, t)

/-- Link-corrected errors of a channel in the last 100,000,000 reference edges (R259). -/
def linkTimes (s : State) (k : Chan) : List Nat := k.links.filter (fun t => decide (s.now < t + 100000000))

/-- What a read from the DRAM brings to light before the block is checked; a link error is counted, and one that fails its retry
counts as an uncorrectable block (R248). No BLK_ERR bit shows a corrected link error: the code of its journal record is a free value. -/
def meetFault (ch b : Nat) (fault : BlockFault) (s : State) : State :=
  match fault with
  | .good => s
  | .single => damaged b 1 s
  | .double => damaged b 2 s
  | .wrongPlace => damaged b 4 s
  | .linkCorrected =>
    let k := getChan s ch
    let d := draw (putChan ch { k with links := linkTimes s k ++ [s.now] } s)
    bankEv (chanBank ch) 0x09 1 (addF (mcPage ch) Mc.linkCeCnt 1 (noteCe (pgMc ch) (d.1 % 2 ^ 16) none d.2))
  | .linkFailed => mcErr ch Mc.eLinkUc b (damaged b 2 s)

/-- One granule request at the channel that holds it. No party reads Mere before the zero fill of bring-up has ended (R252). -/
def mereRequest (g : Nat) (rq : MereReq) (fault : BlockFault) (s : State) : State :=
  let a := mereBase + 32 * g
  let b := a / 64 * 64
  let ch := chanOf s a
  let st := mcState s ch
  if mereEnd s ≤ a ∨ (activeChans s).isEmpty = true ∨ (st ≠ mcActive ∧ st ≠ mcRetraining ∧ st ≠ mcFailed) then s
  else
    match rq with
    | .read h =>
      if s.filled = false then s else
      let k := getChan s ch
      let s := if b ∈ k.buf then s else meetFault ch b fault s
      let r := mereReadBlock (some h.val) b (countMere false b a 32 s)
      { r.2 with outbox := r.2.outbox ++ [.granule a (memList r.2 a 32) r.1] }
    | .write off bytes =>
      let bs := bytes.take (32 - off.val)
      let s := countMere true b a 32 s
      if fault = .linkFailed then chanTouch ch (loseWrite Mc.eLinkUc b s)
      else mereWriteBlock b (a + off.val) bs (meetFault ch b fault s)

def execMereRequest (g : Nat) (rq : MereReq) (fault : BlockFault) (s : State) : Host.Outcome State Fault Refusal :=
  Host.Outcome.next (mereRequest g rq fault s)

/-! ## Patrol (R249) -/

/-- Data blocks of a channel. -/
def chanBlocks : Nat := 65011712

def merePatrol (ch : Nat) (fault : BlockFault) (s : State) : State :=
  let k := getChan s ch
  if mcState s ch ≠ mcActive ∨ getF s (mcPage ch) Mc.patrolEn = 0 ∨ s.filled = false ∨ s.now < k.patrolAt + 100 then s
  else
    let s := bankEv (chanBank ch) 0x08 1 (putChan ch { k with patrolAt := s.now } s)
    let pos := getF s (mcPage ch) Mc.patrolPos
    let b := patrolAddr s ch pos
    let s := meetFault ch b fault s
    let s := match tblGet 0 s.damage b with
      | 0 => s
      | 3 => s
      | 1 => reportCe (pgMc ch) Mc.eDataCe none b 0 (addF (mcPage ch) Mc.ceCnt 1 (correct b s))
      | d =>
        let s := if d = 4 then setErrBit (mcPage ch) Mc.eTagMismatch s else s
        reportUcRead (pgMc ch) Mc.ePatrolUc none (b % 2 ^ 32) none
          (mcErr ch Mc.ePatrolUc b (addF (mcPage ch) Mc.ucCnt 1 (poison b s)))
    setF (mcPage ch) Mc.patrolPos ((pos + 1) % chanBlocks) s

def execMerePatrol (ch : ChanId) (fault : BlockFault) (s : State) : Host.Outcome State Fault Refusal :=
  Host.Outcome.next (merePatrol ch fault s)

/-! ## Training (R250 to R252) -/

/-- Stage S8 of bring-up runs. -/
def inStage (s : State) (n : Nat) : Bool := getF s bupPage Bup.stage == n && getF s bupPage Bup.state == 0

/-- Retires a channel: out of the interleave, SEG_COUNT lowered (R251). -/
def retireChan (ch : Nat) (s : State) : State :=
  let s := resetRange (mcPage ch + 0x48) (mcPage ch + 0x5C) s
  let s := setActive ch false (setMc ch mcRetired s)
  let n := ((List.range 192).filter (fun i => mcState s i != mcRetired)).length
  setF segPage Seg.count (segCountOf n) s

/-- The log entry names a channel (kind 3). -/
def chanLogged (s : State) (ch : Nat) : Bool := s.dlog.any (fun d => d.kind == 3 && d.unit == ch)

/-- TRAINING_STAGE: one stage of a channel's training at S8. A failed stage starts again from stage 1; the third failed attempt
retires and logs the channel. A channel that the log names is retired without training. -/
def trainStage (ch : Nat) (pass : Bool) (s : State) : State :=
  if inStage s 8 = false ∨ mcState s ch ≠ mcTraining then s
  else if chanLogged s ch then retireChan ch s
  else
    let k := getChan s ch
    if pass then
      if k.stage < 6 then putChan ch { k with stage := k.stage + 1 } s
      else
        let s := setF (mcPage ch) Mc.attempts (k.tries + 1) s
        let s := putChan ch { k with stage := 1, tries := 0, retrainAt := s.now, retrainTemp := getF s (mcPage ch) Mc.temp, last := s.now } s
        setActive ch true (setMc ch mcActive s)
    else
      let s := setF (mcPage ch) Mc.failStage k.stage (setErr (mcPage ch) Mc.eTrainFail 0 0 s)
      let s := setF (mcPage ch) Mc.attempts (k.tries + 1) s
      let s := putChan ch { k with stage := 1, tries := k.tries + 1 } s
      if k.tries + 1 = 3 then logDefect 3 0x01 8 ch (retireChan ch s) else s

def execTrainingStage (ch : ChanId) (pass : Bool) (s : State) : Host.Outcome State Fault Refusal :=
  Host.Outcome.next (trainStage ch pass s)

/-- Every channel has ended its training. -/
def trained (s : State) : Bool := (List.range 192).all (fun ch => mcState s ch != mcTraining)

/-- MERE_ZERO_FILL: every block of every active channel zero, with valid check bits and no poison. -/
def zeroFill (s : State) : State :=
  if inStage s 8 = false ∨ trained s = false then s
  else { memZero mereBase (mereBase + 2 ^ 40) s with filled := true }

/-! ## Refresh, temperature and idle (R253, R254) -/

/-- A per-bank refresh at the rate the package's mode register calls for, which DERATE shows (R262). Data is unchanged. -/
def refresh (ch : Nat) (derate : Bool) (s : State) : State :=
  if mcState s ch = mcRetired then s else setF (mcPage ch) Mc.derate (if derate then 1 else 0) (bankEv (chanBank ch) 0x03 1 s)

def execRefresh (ch : ChanId) (derate : Bool) (s : State) : Host.Outcome State Fault Refusal :=
  Host.Outcome.next (refresh ch derate s)

/-- The package sensor reports to one channel; TEMP_HIGH at 95 °C or more, journalled when it rises. -/
def chanTemp (temp ch : Nat) (s : State) : State :=
  if mcState s ch = mcRetired then s
  else
    let was := getF s (mcPage ch) Mc.tempHigh
    let s := setF (mcPage ch) Mc.temp temp s
    if 95 ≤ temp then
      if was = 1 then s else journalEvent (pgMc ch) 0xFF temp (setF (mcPage ch) Mc.tempHigh 1 s)
    else setF (mcPage ch) Mc.tempHigh 0 s

def execTempReport (pkg : Fin 48) (temp : Fin 256) (s : State) : Host.Outcome State Fault Refusal :=
  Host.Outcome.next ((List.range 4).foldl (fun s i => chanTemp temp (4 * pkg + i) s) s)

/-- A channel idle for 10 µs enters power-down. -/
def powerDown (ch : Nat) (s : State) : State :=
  let k := getChan s ch
  if mcState s ch ≠ mcActive ∨ getF s (mcPage ch) Mc.sref = 1 ∨ s.now < k.last + 10 * usEdges then s
  else putChan ch { k with powerDown := true } (if k.powerDown then s else bankEv (chanBank ch) 0x05 1 s)

def execPowerDownEntry (ch : ChanId) (s : State) : Host.Outcome State Fault Refusal := Host.Outcome.next (powerDown ch s)

/-- A channel idle for 1 ms enters self refresh. -/
def selfRefresh (ch : Nat) (s : State) : State :=
  let k := getChan s ch
  if mcState s ch ≠ mcActive ∨ s.now < k.last + msEdges then s
  else
    let s := if getF s (mcPage ch) Mc.sref = 1 then s else bankEv (chanBank ch) 0x06 1 s
    setF (mcPage ch) Mc.sref 1 (putChan ch { k with powerDown := false } s)

def execSelfRefreshEntry (ch : ChanId) (s : State) : Host.Outcome State Fault Refusal := Host.Outcome.next (selfRefresh ch s)

/-! ## Retraining (R255 to R259) -/

/-- The temperature calls for a retraining. -/
def retrainHot (s : State) (ch : Nat) : Bool :=
  let k := getChan s ch
  let t := getF s (mcPage ch) Mc.temp
  decide (getF s (mcPage ch) Mc.tempDelta ≤ max t k.retrainTemp - min t k.retrainTemp)

/-- The period or the temperature calls for a retraining. -/
def retrainWanted (s : State) (ch : Nat) : Bool :=
  decide ((getChan s ch).retrainAt + getF s (mcPage ch) Mc.retrainMs * msEdges ≤ s.now) || retrainHot s ch

/-- RETRAIN_DUE: not in self refresh; a temperature that crosses TEMP_DELTA during a retraining makes the channel due again when it ends (R260). -/
def retrainDue (ch : Nat) (s : State) : State :=
  if retrainWanted s ch = false ∨ getF s (mcPage ch) Mc.sref = 1 then s
  else if mcState s ch = mcActive then setF (mcPage ch) Mc.due 1 s
  else if mcState s ch = mcRetraining ∧ retrainHot s ch = true ∧ (getChan s ch).wasHot = false then putChan ch { getChan s ch with again := true } s
  else s

def execRetrainDue (ch : ChanId) (s : State) : Host.Outcome State Fault Refusal := Host.Outcome.next (retrainDue ch s)

/-- Three failed retrainings, or more link-corrected errors than LINK_CE_LIMIT in 100,000,000 edges (R259). -/
def fullWanted (s : State) (ch : Nat) : Bool :=
  decide (3 ≤ getF s (mcPage ch) Mc.fails) || decide (getF s (mcPage ch) Mc.linkCeLimit < (linkTimes s (getChan s ch)).length)

/-- The channel the group arbiter grants next: the first due one after the one last granted, in round-robin order, while none of
the group retrains (R256). A channel that is to retrain in full waits for that (R259). -/
def nextGrant (s : State) (g : Nat) : Option Nat :=
  let chs := (List.range 16).map (fun i => 16 * g + i)
  if chs.any (fun c => mcState s c == mcRetraining) then none
  else
    let from' := (tblGet 15 s.mcLast g + 1) % 16
    ((List.range 16).map (fun i => 16 * g + (from' + i) % 16)).find?
      (fun c => mcState s c == mcActive && getF s (mcPage c) Mc.due == 1 && getF s (mcPage c) Mc.sref == 0 && !fullWanted s c)

/-- The longest hold since the last read (R264). -/
def holdMax (ch hold : Nat) (s : State) : State := setF (mcPage ch) Mc.hold (min (max (getF s (mcPage ch) Mc.hold) hold) 65535) s

/-- RETRAIN_WINDOW: one window of a channel's retraining, which its first window begins by the arbiter's grant. The third ends it:
completed, or failed where a window kept its previous setting (R258). Stored data is never touched. -/
def retrainWindow (ch : Nat) (pass : Bool) (hold : Nat) (s : State) : State :=
  let g := ch / 16
  let k := getChan s ch
  let granted := decide (mcState s ch = mcRetraining ∧ k.winEnd + 50 * usEdges ≤ s.now)
  let first := decide (nextGrant s g = some ch)
  if granted = false ∧ first = false then s
  else
    let s := if first then setMc ch mcRetraining { s with mcLast := tblPut 15 s.mcLast g (ch % 16) } else s
    let k := if first then { k with windows := 0, winFailed := false, again := false, wasHot := retrainHot s ch } else k
    let k := { k with windows := k.windows + 1, winFailed := k.winFailed || !pass, winEnd := s.now }
    let s := bankEv (chanBank ch) 0x04 hold (holdMax ch hold s)
    if k.windows < 3 then putChan ch k s
    else
      let s := setMc ch mcActive s
      if k.winFailed then
        let s := setErr (mcPage ch) Mc.eTrainFail 0 0 s
        addSat (mcPage ch) Mc.fails 1 (setF (mcPage ch) Mc.due 1 (putChan ch { k with windows := 0 } s))
      else
        let due := if k.again then 1 else 0
        let k := { k with windows := 0, retrainAt := s.now, retrainTemp := getF s (mcPage ch) Mc.temp, again := false }
        let s := addF (mcPage ch) Mc.retrainCnt 1 (setF (mcPage ch) Mc.fails 0 (setF (mcPage ch) Mc.due due s))
        putChan ch k s

def execRetrainWindow (ch : ChanId) (pass : Bool) (hold : Fin 801) (s : State) : Host.Outcome State Fault Refusal :=
  Host.Outcome.next (retrainWindow ch pass hold s)

/-- FULL_RETRAIN: after three failed retrainings, or link errors above the limit, stages 2 to 6 run once with
requests held. `fail` is the stage that fails, less 2; a failure makes the channel FAILED, FATAL and logged. The log's cause of
a channel that fails in service is stated nowhere: a free value. -/
def fullRetrain (ch : Nat) (fail : Option (Fin 5)) (hold : Nat) (s : State) : State :=
  let k := getChan s ch
  if mcState s ch ≠ mcActive ∨ fullWanted s ch = false then s
  else
    let s := setErr (mcPage ch) Mc.eTrainFail 0 0 (bankEv (chanBank ch) 0x04 hold (holdMax ch hold s))
    let s := setF (mcPage ch) Mc.inService 1 (setF (mcPage ch) Mc.attempts 1 s)
    match fail with
    | none =>
      let s := setF (mcPage ch) Mc.failStage 0 (setF (mcPage ch) Mc.fails 0 (setF (mcPage ch) Mc.due 0 s))
      putChan ch { k with links := [], retrainAt := s.now, retrainTemp := getF s (mcPage ch) Mc.temp } s
    | some st =>
      let s := setMc ch mcFailed (setF (mcPage ch) Mc.failStage (st.val + 2) s)
      let s := setErr (mcPage ch) Mc.eFailed 0 0 s
      let d := draw s
      reportFatal 0x01 (logDefect 3 (d.1 % 256) 0xFF ch d.2)

def execFullRetrain (ch : ChanId) (fail : Option (Fin 5)) (hold : Fin 50001) (s : State) : Host.Outcome State Fault Refusal :=
  Host.Outcome.next (fullRetrain ch fail hold s)

end Sys2Proof.Machine
end

