-- ==== Sys2Proof/Machine/Rasis.lean ====
section
/-!
DEFINITION. The Rasis transport beneath its messages, by R275 to R281: connections, sending on paths with windows, and the bytes of
message bodies.
-/
namespace Sys2Proof.Machine

def getConn (s : State) (k : Nat) : Conn := tblGet {} s.conns k
def putConn (k : Nat) (c : Conn) (s : State) : State := { s with conns := tblPut {} s.conns k c }
def getIfc (s : State) (i : Nat) : Ifc := tblGet {} s.ifcs i
def putIfc (i : Nat) (k : Ifc) (s : State) : State := { s with ifcs := tblPut {} s.ifcs i k }
def getPath (c : Conn) (i : Nat) : Path := tblGet {} c.paths i
def putPath (i : Nat) (p : Path) (c : Conn) : Conn := { c with paths := tblPut {} c.paths i p }

/-- A bit as a number. -/
def b2n (b : Bool) : Nat := if b then 1 else 0

/-- Interface states. -/
def ifDown : Nat := 0
def ifTraining : Nat := 1
def ifHold : Nat := 2
def ifUp : Nat := 3

/-- Message types of R277. -/
def tNull : Nat := 0
def tRegRd : Nat := 1
def tRegWr : Nat := 2
def tMemRd : Nat := 3
def tMemWr : Nat := 4
def tDoorbell : Nat := 5
def tCompletion : Nat := 6
def tEvent : Nat := 7
def tColl : Nat := 8
def tMgmt : Nat := 9

/-- Flag bits of R275. -/
def fSyn : Nat := 1
def fFin : Nat := 2
def fAck : Nat := 4
def fEce : Nat := 8
def fRetx : Nat := 16
def fProbe : Nat := 32

/-- Statuses of R282. -/
def rsOk : Nat := 0
def rsAccess : Nat := 1
def rsDataUc : Nat := 2
def rsMalformed : Nat := 3
def rsNoTarget : Nat := 4
def rsRefused : Nat := 5
def rsNoConn : Nat := 6

/-- DATA_MAX of R271 for the port of an interface. -/
def dataMax (s : State) (ifc : Nat) : Nat := if getF s (ethPage (ifc / 2)) Eth.jumbo = 1 then 8192 else 1024

/-- Interfaces a port mode presents, by R267. -/
def ifcPresent (s : State) (i : Nat) : Bool :=
  match getF s (ethPage (i / 2)) Eth.mode with
  | 0 => i % 2 == 0
  | 1 => i % 2 == 0
  | 2 => true
  | _ => false

/-- The address of a peer that path i is paired with (R280). -/
def pathAddr (c : Conn) (i : Nat) : Nat := c.addrs.getD (i % max 1 c.addrs.length) 0

/-- The priority of a message's class (R270, R288): CTRL, BULK, COLL or MGMT. -/
def pcpOf (s : State) (ifc type : Nat) : Nat :=
  let f := if type = tMemRd ∨ type = tMemWr then Ifc.bulkPcp
    else if type = tColl then Ifc.collPcp
    else if type = tMgmt then Ifc.mgmtPcp
    else Ifc.ctrlPcp
  getF s (ifcPage ifc) f

/-- The VLAN of a connection's kind: management or data. -/
def vidOf (s : State) (ifc kind : Nat) : Nat := getF s (ifcPage ifc) (if kind = 2 then Ifc.mgmtVid else Ifc.dataVid)

/-- MACsec of an outgoing frame (R272): without a key, or with its packet numbers used up, the channel sends nothing. Past
0xFFFF_FFFF_0000_0000 the port asks for a new key. -/
def protect (ifc : Nat) (s : State) : Bool × State :=
  if getF s (ethPage (ifc / 2)) Eth.macsecEn = 0 then (true, s)
  else
    let i := 8 * ifc + (getIfc s ifc).txAn.getD 0
    match tblFind i s.macKeys with
    | none => (false, s)
    | some m =>
      if 2 ^ 64 - 1 ≤ m.pn then (false, s)
      else
        let s : State := { s with macKeys := tblInsert i { m with pn := m.pn + 1 } s.macKeys }
        if m.pn = 0xFFFFFFFF00000000 then (true, journalEvent (pgEth (ifc / 2)) 0xFF ifc (setF (ethPage (ifc / 2)) Eth.rekey 1 s))
        else (true, s)

/-- Bytes of a frame: Ethernet header, tag, IP, UDP and Rasis headers, what follows, MACsec and FCS (R271). An address in IPv4-mapped form takes IPv4. -/
def frameBytes (s : State) (ifc addr : Nat) (w : Wire) : Nat :=
  14 + 4 + (if addr / 2 ^ 32 = 0xFFFF then 20 else 40) + 8 + 32 + w.body.length + (if getF s (ethPage (ifc / 2)) Eth.macsecEn = 1 then 32 else 0) + 4

/-- Counts of a frame sent (R483, R485, R491). -/
def countSent (ifc addr : Nat) (w : Wire) (s : State) : State :=
  let b := portBank (ifc / 2)
  let s := if (w.flags / fRetx) % 2 = 1 then bankEv b 0x03 1 s else s
  bankBytes b 0 (frameBytes s ifc addr w) (bankEv b 0x01 1 (bankFix b 1 1 s))

/-- A received pause holds a priority of the interface (R268). -/
def pausedNow (s : State) (ifc pcp : Nat) : Bool := decide (s.now < tblGet 0 (getIfc s ifc).paused pcp)

/-- The MAC every frame of an interface goes to (R269). -/
def nextHopMac (s : State) (ifc : Nat) : Nat := getF s (ifcPage ifc) Ifc.nhMacHi * 2 ^ 32 + getF s (ifcPage ifc) Ifc.nhMacLo

/-- The ECN codepoint ECT(0), which every packet carries (R268). -/
def ect0 : Nat := 2

/-- A packet leaves on an interface; an interface that is DOWN sends nothing (R273), and neither does a paused priority. The entropy of its UDP source port is free
(R281). -/
def emit (ifc addr kind : Nat) (w : Wire) (s : State) : State :=
  let m := protect ifc s
  if (getIfc s ifc).state < ifHold ∨ pausedNow s ifc (pcpOf s ifc w.type) = true ∨ m.1 = false then s
  else
    let s := countSent ifc addr w m.2
    let d := draw s
    { d.2 with outbox := s.outbox ++ [.packet ifc (nextHopMac s ifc) addr (vidOf s ifc kind) (pcpOf s ifc w.type) ect0 (d.1 % 2 ^ 16)
      { w with path := ifc }] }

/-- Selective acknowledgement: bit i for PSN ACK_PSN + 1 + i received (R275). -/
def sackOf (c : Conn) : Nat :=
  c.early.foldl (fun m w => let i := (w.psn + 2 ^ 32 - c.rxPsn - 1) % 2 ^ 32; if i < 63 then m ||| 2 ^ i else m) 0

/-- A NULL with ACK for a connection: current ACK_PSN and SACK, and ECE while CE-marked packets arrive (R281). -/
def ackWire (k : Nat) (c : Conn) (extra : Nat) : Wire :=
  { type := tNull, flags := fAck + (if c.ece then fEce else 0) + extra, dst := c.peer, src := k, ack := c.rxPsn, sack := sackOf c }

/-- A path that carries packets: in use, not SUSPECT, its interface up. -/
def pathLive (s : State) (c : Conn) (i : Nat) : Bool :=
  let p := getPath c i
  p.inUse && !p.suspect && (getIfc s i).state == ifUp

/-- Packets a path has outstanding. -/
def onPath (c : Conn) (i : Nat) : Nat := (c.unacked.filter (fun x => x.path == i)).length

/-- Bytes of data that a packet of the device carries after its body header (R271, R310, R466). -/
def dataLen (w : Wire) : Nat :=
  if w.type = tCompletion then w.body.length else if w.type = tColl then w.body.length - 64 else if w.type = tMgmt then w.body.length - 32 else 0

/-- A path takes a packet now: it is live, its port carries that much data, and no pause holds the packet's priority. -/
def pathTakes (s : State) (c : Conn) (w : Wire) (i : Nat) : Bool :=
  pathLive s c i && decide (dataLen w ≤ dataMax s i) && !pausedNow s i (pcpOf s i w.type)

/-- The path for a new packet: of those with window open, the one whose outstanding packets would fill the least part of its window, so that the packets spread in
proportion to the windows; the lowest index where several tie (R281). -/
def pickPath (s : State) (c : Conn) (w : Wire) : Option Nat :=
  let part := fun i => onPath c i + 1
  let size := fun i => (getPath c i).window
  let open' := (List.range 4).filter (fun i => pathTakes s c w i && decide (part i ≤ size i))
  open'.foldl (fun b i => match b with
    | none => some i
    | some j => if part i * size j < part j * size i then some i else some j) none

/-- Sends a packet again on a path, with RETX (R274, R280); one that has not been sent yet goes as it is. -/
def resend (k : Nat) (path : Nat) (x : Sent) (s : State) : State :=
  let c := getConn s k
  let w := if x.sent = false ∨ (x.wire.flags / fRetx) % 2 = 1 then x.wire else { x.wire with flags := x.wire.flags + fRetx }
  let y : Sent := ⟨w, path, s.now, x.sent, true, false⟩
  let c := { c with unacked := c.unacked.map (fun z => if z.wire.psn = x.wire.psn then y else z), retx := if x.sent then (c.retx + 1) % 2 ^ 16 else c.retx }
  let s := putConn k c s
  emit path (pathAddr c path) c.kind w (if x.sent then addF rasPage Ras.retxCnt 1 s else s)

/-- Packets that wait for a path go on the first that takes them. -/
def repeatHeld (k : Nat) (s : State) : State :=
  ((getConn s k).unacked.filter (fun x => x.held)).foldl (fun s x =>
    match (List.range 4).find? (pathTakes s (getConn s k) x.wire) with
    | none => s
    | some i => resend k i x s) s

/-- Sends waiting packets while a live path has room and fewer than 64 are outstanding (R281); each takes the next PSN. -/
def sendNew (k : Nat) : Nat → State → State
  | 0, s => s
  | n + 1, s =>
    let c := getConn s k
    match c.txq with
    | [] => s
    | w :: rest =>
      if 64 ≤ c.unacked.length ∨ (c.state ≠ .opened ∧ c.state ≠ .closing) then s
      else
        match pickPath s c w with
        | none => s
        | some i =>
          let w := { w with psn := c.txPsn, dst := c.peer, src := k }
          let c' := { c with txq := rest, txPsn := (c.txPsn + 1) % 2 ^ 32, unacked := c.unacked ++ [⟨w, i, s.now, false, true, false⟩],
                             advanced := if c.unacked.isEmpty then s.now else c.advanced, usedAt := s.now }
          sendNew k n (emit i (pathAddr c i) c.kind w (putConn k c' s))

/-- Everything that waits on a connection and may go: packets that go again, then new ones. -/
def pump (k : Nat) (n : Nat) (s : State) : State := sendNew k n (repeatHeld k s)

/-- Queues a message on a connection and sends what may go. -/
def sendMsg (k : Nat) (w : Wire) (s : State) : State :=
  let c := getConn s k
  if c.state = .opened then pump k 64 (putConn k { c with txq := c.txq ++ [w] } s) else s

/-- The COMPLETION of a request: its MSG, status and data (R282). -/
def sendCompletion (k msg status : Nat) (data : List Byte) (s : State) : State :=
  sendMsg k { type := tCompletion, flags := 0, dst := 0, src := k, msg := msg, status := status, body := data } s

/-- A path that may carry a NULL now. -/
def nullPath (s : State) (c : Conn) : Option Nat :=
  (List.range 4).find? (fun i => pathLive s c i && !pausedNow s i (pcpOf s i tNull))

/-- An acknowledgement goes out on the first path in use, and nothing more is owed. -/
def sendAck (k : Nat) (s : State) : State :=
  let c := getConn s k
  match nullPath s c with
  | none => s
  | some i => putConn k { c with owed := 0 } (emit i (pathAddr c i) c.kind (ackWire k c 0) s)

/-! ## Interfaces that go DOWN (R273, R274) -/

/-- The unacknowledged packets of a path wait for another, and go where one takes them. -/
def failOver (k i : Nat) (s : State) : State :=
  let c := getConn s k
  repeatHeld k (putConn k { c with unacked := c.unacked.map (fun x => if x.path = i then { x with held := true } else x) } s)

/-- An interface is out of use for every connection. -/
def dropPaths (i : Nat) (s : State) : State :=
  s.conns.foldl (fun s e =>
    let c := getConn s e.1
    failOver e.1 i (putConn e.1 (putPath i { getPath c i with inUse := false, answered := false } c) s)) s

/-- ETH_STAT as its interfaces stand: bit s of UP while interface 2p + s is up; a fault on either shows, and so does completed auto-negotiation (R287). -/
def showPort (p : Nat) (s : State) : State :=
  let a := getIfc s (2 * p)
  let b := getIfc s (2 * p + 1)
  setF (ethPage p) Eth.up (b2n (decide (ifHold ≤ a.state)) + 2 * b2n (decide (ifHold ≤ b.state))) (setF (ethPage p) Eth.localFault (b2n (a.localFault || b.localFault))
    (setF (ethPage p) Eth.remoteFault (b2n (a.remoteFault || b.remoteFault)) (setF (ethPage p) Eth.anDone (b2n (a.anDone || b.anDone)) s)))

/-- An interface goes DOWN, and links again while its port mode presents it. -/
def linkDown (i : Nat) (s : State) : State :=
  let p := i / 2
  let k := getIfc s i
  let s := putIfc i { k with state := if ifcPresent s i then ifTraining else ifDown, since := s.now, paused := [], fecs := [], fecBad := false, anDone := false } s
  let s := addF (ethPage p) Eth.flapCnt 1 (setErr (ethPage p) Eth.eLinkDown 0 0 (showPort p s))
  dropPaths i { s with notices := s.notices ++ [.link i false] }

/-- The fields of ETH_CFG. -/
def ethCfg (s : State) (p : Nat) : List Nat :=
  [Eth.mode, Eth.anEn, Eth.macsecEn, Eth.pfcEn, Eth.pfcPrio, Eth.jumbo].map (fun f => getF s (ethPage p) f)

/-- ETH_CFG of a port that runs has changed: what is up goes DOWN at once, and what the new mode presents trains (R267, R273). -/
def portChanged (p : Nat) (s : State) : State :=
  if s.boot.ports = false then s
  else [2 * p, 2 * p + 1].foldl (fun s i =>
    if ifHold ≤ (getIfc s i).state then linkDown i s
    else putIfc i { getIfc s i with state := if ifcPresent s i then ifTraining else ifDown, since := s.now } s) s

/-- Little-endian field of a body. -/
def bNat (b : List Byte) (off n : Nat) : Nat := leNat ((b.drop off).take n)

/-- Open host connections that take device-wide EVENTs (R283). -/
def deviceListeners (s : State) : List Nat :=
  (s.conns.filter (fun e => e.2.state == .opened && e.2.kind == 0 && e.2.devEvents)).map (fun e => e.1)

end Sys2Proof.Machine
end

