-- ==== Sys2Proof/Machine/Queues.lean ====
section
/-!
DEFINITION. Engine queues, by R198 to R213 and R232 to R239: ownership of ranges, doorbells, the checks of a descriptor, its start,
its completion record, and the resets and settings of a queue.
-/
namespace Sys2Proof.Machine

/-! ## Descriptors -/

/-- A little-endian field of a descriptor. -/
def dNat (d : List Byte) (off n : Nat) : Nat := leNat ((d.drop off).take n)

def dOp (d : List Byte) : Nat := dNat d 0 1
def dFlag (d : List Byte) (i : Nat) : Bool := (dNat d 1 1).testBit i
def dSigCtr (d : List Byte) : Nat := bitsOf (dNat d 2 2) 0 12
def dWaitCtr (d : List Byte) : Nat := bitsOf (dNat d 4 2) 0 12
def dTag (d : List Byte) : Nat := dNat d 8 4
def dWaitValue (d : List Byte) : Nat := dNat d 0xC 4

/-- Status codes of R213. -/
def stOk : Nat := 0
def stDescInvalid : Nat := 1
def stAccess : Nat := 2
def stHedgeState : Nat := 3
def stBindRefused : Nat := 4
def stImageRefused : Nat := 5
def stProgramError : Nat := 6
def stWatchdog : Nat := 7
def stUcNotReplayed : Nat := 8
def stReplayLimit : Nat := 9
def stSpareExhausted : Nat := 10
def stDataUc : Nat := 11
def stEventDenied : Nat := 12
def stAborted : Nat := 13
def stPeer : Nat := 14
def stPrivet : Nat := 15

/-- State codes of R214. -/
def hCode : HState → Nat
  | .unbound => 0
  | .bound => 1
  | .ready => 2
  | .running => 3
  | .frozen => 4
  | .retained => 5
  | .scrubbing => 6

/-- The engines of R198, by queue number. -/
inductive Engine where
  | fabric | transfer | network | mailbox
  deriving DecidableEq, Repr

def engineOf (q : Nat) : Engine :=
  if q < 32 then .fabric else if q < 96 then .transfer else if q < 128 then .network else .mailbox

/-- Descriptors in flight per queue (R198). -/
def queDepth (q : Nat) : Nat :=
  match engineOf q with
  | .fabric => 1
  | .transfer => 8
  | .network => 4
  | .mailbox => 1

/-- The Hedge number a queue belongs to (R199). -/
def queHedge (s : State) (q : Nat) : Nat := if q < 32 then q else getF s (quePage q) Que.hedge

/-! ## Segments and the range check (R202, R203) -/

def segOwnerField : Nat → Field
  | 0 => Seg.owner0
  | 1 => Seg.owner1
  | 2 => Seg.owner2
  | _ => Seg.owner3

def segScrubField : Nat → Field
  | 0 => Seg.scrubbing0
  | 1 => Seg.scrubbing1
  | 2 => Seg.scrubbing2
  | _ => Seg.scrubbing3

/-- HEDGE and ASSIGNED of a segment's SEG_OWNER byte (R238). -/
def segOwner (s : State) (g : Nat) : Nat := getF s segPage (segOwnerField (g % 4)) (g / 4)
def setSegOwner (g v : Nat) (s : State) : State := setF segPage (segOwnerField (g % 4)) v s (g / 4)
def segScrubbing (s : State) (g : Nat) : Bool := getF s segPage (segScrubField (g % 4)) (g / 4) == 1
def setSegScrubbing (g v : Nat) (s : State) : State := setF segPage (segScrubField (g % 4)) v s (g / 4)
def segAssigned (s : State) (g : Nat) : Bool := (segOwner s g).testBit 5
def segHedge (s : State) (g : Nat) : Nat := bitsOf (segOwner s g) 0 5

/-- The segment of a Mere address. -/
def segOf (a : Nat) : Nat := (a - mereBase) / 2 ^ 30

/-- A range lies wholly in offered segments assigned to a Hedge number. -/
def mereOwned (s : State) (h a n : Nat) : Bool :=
  decide (mereBase ≤ a ∧ a + n ≤ mereEnd s) &&
    (List.range (segOf (a + n - 1) + 1 - segOf a)).all (fun i =>
      let g := segOf a + i
      segAssigned s g && segHedge s g == h && !segScrubbing s g)

/-- The states in which an engine of the Hedge may reach its scratchpads (R155). -/
def spmOpen (st : HState) : Bool :=
  match st with
  | .bound | .ready | .running | .frozen => true
  | _ => false

/-- A range lies wholly in scratchpads of logical cores of a Hedge that may be reached. -/
def spmOwned (s : State) (h a n : Nat) : Bool :=
  decide (a + n ≤ 4096 * spmSize) && spmOpen (heldState s h) &&
    (List.range ((a + n - 1) / spmSize + 1 - a / spmSize)).all (fun i =>
      let c := a / spmSize + i
      decide (plotOfCore c ∈ hedgePlots (getHedge s h)) && (siteOf s c).isSome)

/-- The check of R203 on one range of `n` bytes; an empty range is not checked. -/
def rangeOk (s : State) (h a n : Nat) : Bool := n == 0 || mereOwned s h a n || spmOwned s h a n

/-- The first range of a list that fails, by its start: DETAIL holds that address, not the first byte that fails (DESIGN CHOICE). -/
def rangesFail (s : State) (h : Nat) (l : List (Nat × Nat)) : Option Nat :=
  (l.find? (fun r => !rangeOk s h r.1 r.2)).map (fun r => r.1)

/-! ## The checks of R208 -/

/-- The first non-zero byte of a body outside the ranges its opcode uses. -/
def unusedByte (d : List Byte) (used : List (Nat × Nat)) : Option Nat :=
  ((List.range 48).map (fun i => 16 + i)).find? (fun i =>
    (d.getD i 0) ≠ 0 && !used.any (fun u => decide (u.1 ≤ i ∧ i < u.1 + u.2)))

/-- The first offset whose check fails. -/
def firstBad (l : List (Nat × Bool)) : Option Nat := (l.find? (fun e => e.2)).map (fun e => e.1)

/-- The lower of two offsets. -/
def minBad : Option Nat → Option Nat → Option Nat
  | none, y => y
  | x, none => x
  | some x, some y => some (min x y)

/-- Header bytes: reserved bits of FLAGS, SIG_CTR, WAIT_CTR and the reserved bytes. -/
def headerBad (d : List Byte) : Option Nat :=
  firstBad [(1, dNat d 1 1 / 32 ≠ 0), (2, dNat d 2 2 / 4096 ≠ 0), (4, dNat d 4 2 / 4096 ≠ 0), (6, dNat d 6 1 ≠ 0), (7, dNat d 7 1 ≠ 0)]

/-- Fabric Engine bodies, by R215. -/
def feBad (d : List Byte) : Option Nat :=
  match dOp d with
  | 1 => minBad (unusedByte d [(0x10, 5)]) (firstBad
      [(0x10, 31 < dNat d 0x10 1), (0x11, dNat d 0x11 1 = 0 ∨ 8 < dNat d 0x11 1), (0x12, dNat d 0x12 1 = 0 ∨ 4 < dNat d 0x12 1), (0x13, 3 < dNat d 0x13 1)])
  | 2 => unusedByte d [(0x10, 8)]
  | 3 => minBad (unusedByte d [(0x10, 11)]) (firstBad [(0x18, 63 < dNat d 0x18 1), (0x19, 3 < dNat d 0x19 1), (0x1A, 7 < dNat d 0x1A 1)])
  | 4 => minBad (unusedByte d [(0x10, 1)]) (firstBad [(0x10, 3 < dNat d 0x10 1)])
  | 5 => minBad (unusedByte d [(0x10, 3), (0x18, 8)]) (firstBad [(0x10, 4095 < dNat d 0x10 2), (0x12, 1 < dNat d 0x12 1)])
  | 6 => minBad (unusedByte d [(0x10, 2), (0x18, 8)]) (firstBad [(0x10, 4095 < dNat d 0x10 2)])
  | 7 => unusedByte d []
  | 8 => unusedByte d []
  | _ => some 0

/-- A field of a TE body is no multiple of 4. -/
def not4 (d : List Byte) (off n : Nat) : Nat × Bool := (off, dNat d off n % 4 ≠ 0)

/-- Formats CONVERT reads and writes (R228). -/
def convFmt (f : Nat) : Bool := decide ((1 ≤ f ∧ f ≤ 5) ∨ f = 7)

/-- Bytes of an element of a format code of R30 that ADD or CONVERT moves. -/
def codeBytes (f : Nat) : Nat :=
  match fmtOf f with
  | some x => fmtBytes x
  | none => 1

/-- Transfer Engine bodies, by R228. -/
def teBad (d : List Byte) : Option Nat :=
  match dOp d with
  | 1 => minBad (unusedByte d [(0x10, 0x28)]) (firstBad
      [not4 d 0x10 8, not4 d 0x18 8, not4 d 0x20 4, not4 d 0x28 8, not4 d 0x30 8])
  | 2 => minBad (unusedByte d [(0x10, 0x2C)]) (firstBad
      [not4 d 0x10 8, not4 d 0x18 8, not4 d 0x20 8, not4 d 0x28 4, not4 d 0x30 8])
  | 3 =>
    let op := dNat d 0x3C 1
    let fmt := dNat d 0x3D 1
    let addFmt := fmt == 5 || fmt == 3 || fmt == 7
    minBad (unusedByte d [(0x10, 0x2E)]) (firstBad
      [not4 d 0x10 8, not4 d 0x18 8, not4 d 0x20 8,
       (0x28, dNat d 0x28 4 % 4 ≠ 0 ∨ (op = 1 ∧ addFmt = true ∧ dNat d 0x28 4 % codeBytes fmt ≠ 0)), not4 d 0x30 8,
       (0x3C, 1 < op), (0x3D, (op = 0 ∧ fmt ≠ 0) ∨ (op = 1 ∧ addFmt = false))])
  | 4 => minBad (unusedByte d [(0x10, 0x18)]) (firstBad [not4 d 0x10 8, not4 d 0x18 8])
  | 5 => minBad (unusedByte d [(0x10, 0x23)]) (firstBad
      [not4 d 0x10 8, not4 d 0x18 8, not4 d 0x28 4, not4 d 0x2C 4,
       (0x30, convFmt (dNat d 0x30 1) = false), (0x31, convFmt (dNat d 0x31 1) = false), (0x32, 3 < dNat d 0x32 1)])
  | _ => some 0

/-- EFMT values of R298. -/
def efmtOk (f : Nat) : Bool := f == 3 || f == 4 || f == 5 || f == 7
/-- TFMT values of R298. -/
def tfmtOk (f : Nat) : Bool := f == 1 || f == 3 || f == 5 || f == 7

/-- TFMT holds every EFMT value exactly, as ROP MAX and MIN need (R298). -/
def tfmtExact (t e : Nat) : Bool := t == 7 || (t == 5 && (e == 5 || e == 3 || e == 4)) || (t == 3 && e == 3)

/-- Network Engine bodies, by R230 and R297 to R301. What depends on the communicator is checked when the descriptor starts. -/
def neBad (d : List Byte) : Option Nat :=
  let op := dOp d
  let e := dNat d 0x2C 1
  let t := dNat d 0x2D 1
  let rop := dNat d 0x2E 1
  let alg := dNat d 0x2F 1
  let reduce := op == 1 || op == 2
  if op = 0 ∨ 7 < op then some 0
  else
    let params := if op = 5 ∨ (reduce = true ∧ rop ≠ 0) then [(0x30, 16)] else []
    let srcDst := if op = 6 then [(0x10, 8)] else if op = 7 then [(0x18, 8)] else [(0x10, 16)]
    let root := if op = 4 ∨ op = 6 ∨ op = 7 then [(0x2A, 2)] else []
    minBad (unusedByte d (srcDst ++ [(0x20, 8), (0x28, 2)] ++ root ++ [(0x2C, 4)] ++ params)) (firstBad
      [(0x20, 2 ^ 32 - 1 < dNat d 0x20 8), (0x28, 63 < dNat d 0x28 2),
       (0x2C, if op = 5 then e ≠ 0 else efmtOk e = false),
       (0x2D, if op = 5 then t ≠ 0 else tfmtOk t = false ∨ (rop ≠ 0 ∧ reduce = true ∧ tfmtExact t e = false)),
       (0x2E, if reduce then 2 < rop else rop ≠ 0),
       (0x2F, if op = 5 ∨ op = 6 ∨ op = 7 then alg ≠ 0 else 2 < alg),
       (0x30, op = 5 ∧ (dNat d 0x30 2 < 8 ∨ 256 < dNat d 0x30 2 ∨ dNat d 0x30 2 % 8 ≠ 0)),
       (0x32, op = 5 ∧ 3 < dNat d 0x32 2),
       (0x38, op = 5 ∧ (dNat d 0x32 2).testBit 1 = false ∧ dNat d 0x38 8 ≠ 0)])

/-- Mailbox bodies, by R231. -/
def mbBad (d : List Byte) : Option Nat := if dOp d = 1 then unusedByte d [(0x10, 12), (0x20, 12)] else some 0

/-- The byte offset of a descriptor's first bad field, if any. -/
def descBad (q : Nat) (d : List Byte) : Option Nat :=
  let body := match engineOf q with
    | .fabric => feBad d
    | .transfer => teBad d
    | .network => neBad d
    | .mailbox => mbBad d
  minBad body (headerBad d)

/-- The counter a descriptor may not signal or wait on, by R209 and R210. Where neither is allowed, SIG_CTR is named (DESIGN CHOICE). -/
def eventDenied (s : State) (q : Nat) (d : List Byte) : Option Nat :=
  let h := queHedge s q
  if dFlag d 1 ∧ ctrAdmits s h (dSigCtr d) = false then some (dSigCtr d)
  else if dFlag d 3 ∧ ctrAdmits s h (dWaitCtr d) = false then some (dWaitCtr d)
  else none

/-! ## The ranges of Transfer Engine descriptors (R203, R228) -/

/-- Rows of a strided range. -/
def stridedRows (base stride n rows : Nat) : List (Nat × Nat) :=
  if n = 0 then [] else (List.range rows).map (fun r => (base + r * stride, n))

/-- Ranges of COPY. -/
def copyRanges (d : List Byte) : List (Nat × Nat) :=
  let n := dNat d 0x20 4
  let rows := dNat d 0x24 4
  stridedRows (dNat d 0x10 8) (dNat d 0x28 8) n rows ++ stridedRows (dNat d 0x18 8) (dNat d 0x30 8) n rows

/-- The range of FILL. -/
def fillRanges (d : List Byte) : List (Nat × Nat) := [(dNat d 0x10 8, dNat d 0x18 8)]

/-- Ranges of GATHER and SCATTER: the table to the end of its last row, the index list, and the packed side (R203). -/
def tableRanges (d : List Byte) : List (Nat × Nat) :=
  let n := dNat d 0x28 4
  let count := dNat d 0x2C 4
  let lim := dNat d 0x38 4
  if count = 0 then []
  else (if lim = 0 then [] else [(dNat d 0x10 8, (lim - 1) * dNat d 0x30 8 + n)]) ++ [(dNat d 0x18 8, 4 * count), (dNat d 0x20 8, count * n)]

/-- The formats of a CONVERT. -/
def convFmts (d : List Byte) : Fmt × Fmt :=
  ((fmtOf (dNat d 0x30 1)).getD .fp32, (fmtOf (dNat d 0x31 1)).getD .fp32)

/-- Ranges of CONVERT. -/
def convertRanges (d : List Byte) : List (Nat × Nat) :=
  let rows := dNat d 0x20 4
  let cols := dNat d 0x24 4
  let f := convFmts d
  if rows = 0 ∨ cols = 0 then []
  else
    let dst := if (dNat d 0x32 1).testBit 0 then stridedRows (dNat d 0x18 8) (dNat d 0x2C 4) (rows * fmtBytes f.2) cols
      else stridedRows (dNat d 0x18 8) (dNat d 0x2C 4) (cols * fmtBytes f.2) rows
    stridedRows (dNat d 0x10 8) (dNat d 0x28 4) (cols * fmtBytes f.1) rows ++ dst

/-- Ranges of a Transfer Engine descriptor. -/
def teRanges (d : List Byte) : List (Nat × Nat) :=
  match dOp d with
  | 1 => copyRanges d
  | 2 => tableRanges d
  | 3 => tableRanges d
  | 4 => fillRanges d
  | _ => convertRanges d

/-- The ranges that touch scratchpads. -/
def spmRanges (l : List (Nat × Nat)) : List (Nat × Nat) := l.filter (fun r => decide (r.1 < mereBase ∧ r.2 ≠ 0))

/-- Logical cores whose scratchpads a list of ranges touches. -/
def rangeCores (l : List (Nat × Nat)) : List Nat :=
  ((spmRanges l).flatMap (fun r => (List.range ((r.1 + r.2 - 1) / spmSize + 1 - r.1 / spmSize)).map (· + r.1 / spmSize))).eraseDups

/-- Some core of a list sleeps: an access to its memories waits for the wake (R146). -/
def anyAsleep (s : State) (cores : List Nat) : Bool := cores.any (asleep s)

/-- Wakes the clusters of the cores of a list that sleep. -/
def wakeCores (cores : List Nat) (s : State) : State := wakeAll ((cores.filter (asleep s)).map (clusterOfCore s)) s

/-- An engine's accesses to these ranges pause: they touch scratchpads of a FROZEN Hedge (R226). -/
def spmFrozen (s : State) (h : Nat) (l : List (Nat × Nat)) : Bool := !(spmRanges l).isEmpty && (getHedge s h).state == .frozen

/-! ## Queue states (R206, R236) -/

/-- Distance between ring indices, modulo 2^32. -/
def ringDist (a b : Nat) : Nat := (b + 2 ^ 32 - a) % 2 ^ 32

def cqFull (s : State) (q : Nat) : Bool :=
  let pg := quePage q
  ringDist (getF s pg Que.cqHead) (getF s pg Que.cqTail) == 2 ^ getF s pg Que.cqLog2

/-- Q_STAT.STATE. -/
def queState (s : State) (q : Nat) : Nat :=
  let k := getQueue s q
  if k.resetting then 3
  else if getF s (quePage q) Que.en = 0 then 0
  else if k.stopped then 2
  else if cqFull s q then 4
  else 1

/-- A descriptor waits on its counter (R209). -/
def waitUnmet (s : State) (f : Flight) : Bool :=
  dFlag f.desc 3 && decide (tblGet 0 s.evt (dWaitCtr f.desc) % 2 ^ 32 < dWaitValue f.desc) && !f.met

/-- Q_STAT.WAITING: the head descriptor waits on R209. -/
def queWaiting (s : State) (q : Nat) : Bool :=
  (getQueue s q).flights.any (fun f => !f.started && waitUnmet s f)

/-- A Hedge number's owner, by R200. -/
def ownsHedge (s : State) (conn h : Nat) : Bool := (getHedge s h).owner == some conn

/-! ## Completion (R206, R207, R212) -/

/-- Local cycles of the engine half since a descriptor started (R27, R212). -/
def durationOf (s : State) (start : Nat) : Nat := (s.engCyc - start) % 2 ^ 48

/-- How a descriptor ends. -/
structure Ending where
  status   : Nat := 0
  info     : Nat := 0
  detail   : Nat := 0
  nflags   : Nat := 0
  attempts : Nat := 1
  /-- The queue stops whatever STOP_ON_ERR holds. -/
  stop     : Bool := false
  /-- No signal goes out whatever SIG_ANY holds: a descriptor refused by R208 or R209 has no other effect. -/
  mute     : Bool := false
  deriving DecidableEq, Repr

/-- An uncorrectable read at an address. -/
def dataUc (a : Nat) : Ending := { status := stDataUc, detail := a }

/-- An address that fails the check of R203. -/
def denied (a : Nat) : Ending := { status := stAccess, detail := a }

/-- The half of an engine that a queue's Hedge number asks for: 0 west, 1 east (R27). The middle of a Hedge of 8w columns lies between two columns; the
eastern of them, first column + 4w, is taken for its centre (DESIGN CHOICE). -/
def wantHalf (s : State) (q : Nat) : Nat :=
  let k := getHedge s (queHedge s q)
  if k.state = .unbound then queInst q % 2 else if k.plot % 8 * 8 + 4 * k.width < 32 then 0 else 1

/-- The half that serves a queue: while it has a descriptor in flight the one that fetched it, so a queue changes half only between descriptors (R27). -/
def halfOf (s : State) (q : Nat) : Nat :=
  let k := getQueue s q
  if k.flights.isEmpty then wantHalf s q else k.half

/-- The counter bank of the engine that serves a queue; the Mailbox has none (R482). -/
def engineBank (s : State) (q : Nat) : Option Nat :=
  if q < 32 then some (feBank (halfOf s q)) else if q < 96 then some (teBank (halfOf s q)) else if q < 128 then some neBank else none

def engineFix (q i n : Nat) (s : State) : State :=
  match engineBank s q with
  | none => s
  | some b => bankFix b i n s

def engineEv (q code n : Nat) (s : State) : State :=
  match engineBank s q with
  | none => s
  | some b => bankEv b code n s

def engineBytes (q w n : Nat) (s : State) : State :=
  match engineBank s q with
  | none => s
  | some b => bankBytes b w n s

/-- Queues the completion of a descriptor and removes it from the queue's flights; STOP_ON_ERR stops the queue. -/
def complete (q : Nat) (f : Flight) (e : Ending) (s : State) : State :=
  let k := getQueue s q
  let d := f.desc
  let sig := dFlag d 1 && !e.mute && (e.status == 0 || dFlag d 2)
  let c : Compl := {
    index := f.index, tag := dTag d, opcode := dOp d, status := e.status, nflags := e.nflags, info := e.info,
    attempts := e.attempts, duration := if f.started then durationOf s f.start else 0, detail := e.detail,
    signal := if sig then some (dSigCtr d) else none, event := dFlag d 0, stop := e.stop, started := f.started }
  let stop := e.stop || (e.status != 0 && getF s (quePage q) Que.stopOnErr == 1)
  let s := engineFix q 2 1 s
  putQueue q { k with flights := k.flights.filter (fun x => x.index != f.index), compl := k.compl ++ [c], stopped := k.stopped || stop } s

/-- Replaces a descriptor in flight. -/
def putFlight (q : Nat) (f : Flight) (s : State) : State :=
  let k := getQueue s q
  putQueue q { k with flights := k.flights.map (fun x => if x.index = f.index then f else x) } s

/-- The started descriptor of a queue with an opcode, oldest first. -/
def startedOp (s : State) (q op : Nat) : Option Flight :=
  (getQueue s q).flights.find? (fun f => f.started && dOp f.desc == op)

/-! ## Doorbells (R205) -/

/-- A new TAIL: accepted where neither distance exceeds the ring, else ignored with DB_ERR. -/
def doorbell (q tail : Nat) (s : State) : State :=
  let k := getQueue s q
  let size := 2 ^ getF s (quePage q) Que.ringLog2
  let t := tail % 2 ^ 32
  if ringDist (getF s (quePage q) Que.head) t ≤ size ∧ ringDist k.tail t ≤ size then putQueue q { k with tail := t } s
  else putQueue q { k with dbErr := true } s

/-- Q_DOORBELL: a write by the owner of the queue's Hedge number (R201); any other writer's has no effect. -/
def execQDoorbell (conn : ConnId) (q : QueueId) (tail : Word32) (s : State) : Host.Outcome State Fault Refusal :=
  Host.Outcome.next (if ownsHedge s conn (queHedge s q) then doorbell q tail.toNat s else s)

/-! ## Fetch and start (R206, R208, R209, R239) -/

/-- The Fabric Engine holds a queue's fetch: a kill has not reached its end (R217), or a planned shift of the Hedge runs (R422). -/
def fetchHeld (s : State) (q : Nat) : Bool :=
  if q < 32 then
    let k := getHedge s q
    k.killing || k.shiftHold || (tblFind q s.shifts).isSome
  else false

/-- An engine may fetch: the queue runs, has a descriptor, and has room with nothing fetched that waits to start. -/
def canFetch (s : State) (q : Nat) : Bool :=
  let k := getQueue s q
  queState s q == 1 && getF s (quePage q) Que.head != k.tail && k.flights.all (fun f => f.started) &&
    decide (k.flights.length < queDepth q) && !fetchHeld s q && ((q < 96 ∧ 32 ≤ q) ∨ (96 ≤ q ∧ q < 128) ∨ k.compl.isEmpty)

/-- DESCRIPTOR_FETCH: the descriptor at HEAD is read from the ring and checked. -/
def fetchDesc (q : Nat) (parityBad : Bool) (s : State) : State :=
  if canFetch s q = false then s
  else
    let pg := quePage q
    let h := queHedge s q
    let i := getF s pg Que.head
    let a := getF s pg Que.baseHi * 2 ^ 32 + getF s pg Que.baseLo + 64 * (i % 2 ^ getF s pg Que.ringLog2)
    let s := addF pg Que.head 1 s
    let blank : Flight := { index := i, desc := [], started := false, start := s.engCyc, met := false }
    if mereOwned s h a 64 = false then complete q blank { status := stAccess, detail := a, stop := true, mute := true } s
    else
      let r := mereRead (some h) a 64 s
      let s := r.2.2
      let d := r.2.1
      if r.1 = false ∨ parityBad then
        let s := if r.1 then setErr pg Que.eParity 0 0 s
          else
            let s := if (getF s pg Hdr.err).testBit Que.eDescUc then s else captureErr pg a 0 s
            setErrBit pg Que.eDescUc s
        let t := draw s
        let o := draw t.2
        let garbled : List Byte := leBytes 1 o.1 ++ List.replicate 7 0 ++ leBytes 4 t.1
        complete q { blank with desc := garbled } { status := stDataUc, detail := a, stop := !r.1, mute := true } o.2
      else
        match descBad q d with
        | some off => complete q { blank with desc := d } { status := stDescInvalid, detail := off, mute := true } s
        | none =>
          match eventDenied s q d with
          | some c => complete q { blank with desc := d } { status := stEventDenied, detail := c, mute := true } s
          | none =>
            let k := getQueue s q
            putQueue q { k with half := halfOf s q, flights := k.flights ++ [{ blank with desc := d }] } s

def execDescriptorFetch (q : QueueId) (parityBad : Bool) (s : State) : Host.Outcome State Fault Refusal :=
  Host.Outcome.next (fetchDesc q parityBad s)

/-- A fetched descriptor may start: its wait is met, FENCE_BEFORE finds every earlier one completed, and the FE and MB have none
running (R206). -/
def canStart (s : State) (q : Nat) (f : Flight) : Bool :=
  let k := getQueue s q
  let others := k.flights.any (fun x => x.started) || !k.compl.isEmpty
  queState s q == 1 && !waitUnmet s f && !(dFlag f.desc 4 && others) &&
    (match engineOf q with
      | .fabric => !others
      | .mailbox => !others
      | _ => true)

/-- What a FENCE waits for: every descriptor fetched and not completed of the TE or NE queues of its Hedge number (R215). -/
def fenceSet (s : State) (h flags : Nat) : List (Nat × Nat) :=
  ((List.range 96).map (fun i => i + 32)).flatMap (fun q =>
    if queHedge s q = h ∧ flags.testBit (if q < 96 then 0 else 1) then
      (getQueue s q).flights.map (fun f => (q, f.index)) ++ (getQueue s q).compl.map (fun c => (q, c.index))
    else [])

/-- DESCRIPTOR_START: the fetched descriptor begins its work. -/
def startDesc (q : Nat) (s : State) : State :=
  let k := getQueue s q
  match k.flights.find? (fun f => !f.started) with
  | none => s
  | some f =>
    if canStart s q f then
      let fence := if q < 32 ∧ dOp f.desc = 4 then fenceSet s q (dNat f.desc 0x10 1) else []
      let s := engineFix q 1 1 s
      putQueue q { k with flights := k.flights.map (fun x => if x.index = f.index then { x with started := true, start := s.engCyc, fence := fence } else x) } s
    else s

def execDescriptorStart (q : QueueId) (s : State) : Host.Outcome State Fault Refusal := Host.Outcome.next (startDesc q s)

/-! ## Completion records (R207, R212) -/

/-- The 32 bytes of a record. -/
def complBytes (c : Compl) (fstep phase : Nat) : List Byte :=
  leBytes 4 c.tag ++ leBytes 4 c.index ++ leBytes 1 c.status ++ leBytes 1 c.opcode ++ leBytes 1 c.nflags ++ leBytes 1 c.info ++
    leBytes 1 c.attempts ++ leBytes 1 fstep ++ leBytes 1 phase ++ leBytes 1 0 ++ leBytes 8 c.duration ++ leBytes 8 c.detail

/-- COMPLETION_WRITE: the oldest completion of a queue goes into slot CQ_TAIL mod 2^M, CQ_TAIL advances, the counter is signalled and
an EVENT is owed where asked. A range that fails R203, a failed channel, or a link error whose retry fails (R248) is CQ_WRITE_ERR: the queue stops and
holds it. -/
def writeCompl (q : Nat) (linkFailed : Bool) (s : State) : State :=
  let k := getQueue s q
  match k.compl with
  | [] => s
  | c :: rest =>
    if k.held ∨ cqFull s q = true then s
    else
      let pg := quePage q
      let t := getF s pg Que.cqTail
      let m := getF s pg Que.cqLog2
      let a := getF s pg Que.cqBaseHi * 2 ^ 32 + getF s pg Que.cqBaseLo + 32 * (t % 2 ^ m)
      let owned := mereOwned s (queHedge s q) a 32
      if owned = false ∨ mcState s (chanOf s a) = mcFailed ∨ linkFailed = true then
        let s := if owned = false then s else loseWrite (if mcState s (chanOf s a) = mcFailed then Mc.eDataUc else Mc.eLinkUc) (a / 64 * 64) s
        setErr pg Que.eCqWriteErr 0 0 (putQueue q { k with held := true, stopped := true } s)
      else
        let phase := (t / 2 ^ m + 1) % 2
        let bytes := complBytes c (stepCode s) phase
        let s := addF pg Que.cqTail 1 (mereWrite a bytes (putQueue q { k with compl := rest } s))
        let s := match c.signal with
          | some i => ctrAdd i 1 s
          | none => s
        let s : State := if q = s.resetReq.getD 0 + 128 ∧ s.resetReq.isSome then { s with resetReq := none, resetAt := some s.now } else s
        if c.event ∨ getF s pg Que.eventAll = 1 then
          { s with notices := s.notices ++ [.completion (queHedge s q) q bytes] }
        else s

def execCompletionWrite (q : Run QueueId) (s : State) : Host.Outcome State Fault Refusal := Host.Outcome.next (writeCompl q.unit q.bad s)

/-! ## Control writes (R206, R235) -/

/-- RESUME: a stopped queue starts again at HEAD, and a held record is written again (R239). -/
def resumeQueue (q : Nat) (s : State) : State :=
  let k := getQueue s q
  putQueue q { k with stopped := false, held := false } s

def execResume (conn : ConnId) (q : QueueId) (s : State) : Host.Outcome State Fault Refusal :=
  Host.Outcome.next (if ownsHedge s conn (queHedge s q) then resumeQueue q s else s)

/-- Who may write Q_CFG (R201): of an FE queue the owner of its number; of a TE, NE or MB queue the owner of its number, or any connection where it is
unattached, and in both cases one that owns the number it writes. -/
def mayWriteCfg (s : State) (conn q v : Nat) : Bool :=
  if q < 32 then ownsHedge s conn q
  else (ownsHedge s conn (queHedge s q) || (getHedge s (queHedge s q)).owner.isNone) && ownsHedge s conn (bitsOf v 0 5)

/-- A write of Q_CFG (R235): ring sizes outside 4 to 16 void it; while EN is 1 only EN may change. A FE queue's HEDGE is fixed. -/
def writeCfg (q v : Nat) (s : State) : State :=
  let pg := quePage q
  let err := fun (s : State) => putQueue q { getQueue s q with cfgErr := true } s
  let n := bitsOf v 12 5
  let m := bitsOf v 17 5
  if n < 4 ∨ 16 < n ∨ m < 4 ∨ 16 < m then err s
  else
    let hNew := if q < 32 then q else bitsOf v 0 5
    let same := decide (hNew = queHedge s q ∧ bitsOf v 9 1 = getF s pg Que.stopOnErr ∧ bitsOf v 10 1 = getF s pg Que.eventAll ∧
      n = getF s pg Que.ringLog2 ∧ m = getF s pg Que.cqLog2)
    if getF s pg Que.en = 1 then
      let s := setF pg Que.en (bitsOf v 8 1) s
      if same then s else err s
    else
      let s := if q < 32 then s else setF pg Que.hedge hNew s
      let s := setF pg Que.stopOnErr (bitsOf v 9 1) s
      let s := setF pg Que.eventAll (bitsOf v 10 1) s
      let s := setF pg Que.ringLog2 n s
      let s := setF pg Que.cqLog2 m s
      setF pg Que.en (bitsOf v 8 1) s

def execQCfgWrite (conn : ConnId) (q : QueueId) (v : Word32) (s : State) : Host.Outcome State Fault Refusal :=
  Host.Outcome.next (if mayWriteCfg s conn q v.toNat then writeCfg q v.toNat s else s)

end Sys2Proof.Machine
end

