-- ==== Sys2Proof/Machine/Collect.lean ====
section
/-!
DEFINITION. Collectives, by R293 to R321: communicators, the plans of RING and HALVING, the segments between ranks, SHUFFLE, and how a
descriptor of the Network Engine progresses, completes and aborts.
-/
namespace Sys2Proof.Machine

/-! ## Communicators (R293 to R295) -/

def commSize (s : State) (c : Nat) : Nat := getF s nePage Ne.size c
def commRank (s : State) (c : Nat) : Nat := getF s nePage Ne.rank c
def commHedge (s : State) (c : Nat) : Nat := getF s nePage Ne.hedge c
def commKey (s : State) (c : Nat) : Nat := getF s nePage Ne.keyHi c * 2 ^ 32 + getF s nePage Ne.keyLo c
def commTable (s : State) (c : Nat) : Nat := getF s nePage Ne.rankTabHi c * 2 ^ 32 + getF s nePage Ne.rankTabLo c * 64
def commWork (s : State) (c : Nat) : Nat := getF s nePage Ne.workHi c * 2 ^ 32 + getF s nePage Ne.workLo c * 64
def commValid (s : State) (c : Nat) : Bool := getF s nePage Ne.valid c == 1

/-- The two addresses of a rank's entry in the rank table (R293). -/
def rankAddrs (s : State) (c rank : Nat) : List Nat :=
  let a := commTable s c + 32 * rank
  [beNat (memList s a 16), beNat (memList s (a + 16) 16)]

/-- The peer connection to a rank, open or opening (R295). -/
def peerConn (s : State) (c rank : Nat) : Option Nat :=
  (s.conns.find? (fun e => e.2.kind == 1 && (e.2.state == .opening || e.2.state == .opened) && e.2.addrs.any (fun a => decide (a ∈ rankAddrs s c rank)))).map
    (fun e => e.1)

/-- The rank of a communicator that a connection is mapped to (R313). -/
def connIsRank (s : State) (k c rank : Nat) : Bool := (getConn s k).addrs.any (fun a => decide (a ∈ rankAddrs s c rank))

/-- The device's interface addresses on a plane, as a SYN lists them (R278). -/
def ownAddrs (s : State) (mgmt : Bool) : List Nat :=
  ((List.range 4).filter (ifcPresent s)).map (fun i =>
    let f := if mgmt then Ifc.mgmtAddr else Ifc.dataAddr
    beNat ((List.range 4).flatMap (fun w => leBytes 4 (getF s (ifcPage i) f w))))

/-- The body of a SYN (R278). -/
def synBody (addrs : List Nat) (kind opts : Nat) : List Byte :=
  leBytes 1 addrs.length ++ leBytes 1 kind ++ leBytes 2 opts ++ leBytes 4 0 ++ addrs.flatMap (fun a => beBytes 16 a)

/-- The lowest connection number that is FREE. -/
def freeConn (s : State) : Option Nat := firstBelow 4096 (fun k => (getConn s k).state == .free)

/-- Paths of a new connection: every interface that is up. -/
def freshPaths (s : State) : Tbl Path :=
  ((List.range 4).filter (fun i => (getIfc s i).state == ifUp)).map (fun i => (i, { inUse := true }))

/-- Opens a connection from the device's side (R278, R295): a SYN with DST_CONN 0xFFFF and an initial PSN, which is free. Answers the
connection's number. -/
def openConn (kind : Nat) (addrs : List Nat) (s : State) : Option Nat × State :=
  match freeConn s with
  | none => (none, s)
  | some k =>
    let d := draw s
    let psn := d.1 % 2 ^ 32
    let w : Wire := { type := tNull, flags := fSyn, dst := 0xFFFF, src := k, psn := psn, body := synBody (ownAddrs s (kind == 2)) kind 0 }
    let c : Conn := { state := .opening, kind := kind, addrs := addrs, txPsn := (psn + 1) % 2 ^ 32, paths := freshPaths s,
                      advanced := s.now, lastRx := s.now, probed := s.now, usedAt := s.now }
    let path := (List.range 4).find? (pathTakes d.2 c w)
    let s := putConn k { c with unacked := [⟨w, path.getD 0, s.now, false, path.isSome, path.isNone⟩] } d.2
    let s := setF rasPage Ras.nconn ((s.conns.filter (fun e => e.2.state != .free)).length) s
    match path with
    | some i => (some k, emit i (pathAddr c i) kind w s)
    | none => (some k, s)

/-- DATA segments sent and received: the page's counts and the bank's events (R319, R485). -/
def sentSeg (s : State) : State := bankEv neBank 0x06 1 (addF nePage Ne.segTx 1 s)
def gotSeg (s : State) : State := bankEv neBank 0x07 1 (addF nePage Ne.segRx 1 s)

/-! ## Plans (R302, R303) -/

/-- The first element of chunk `i` of `n` chunks over `total` elements (R297). -/
def chunkStart (total n i : Nat) : Nat := i * total / n

/-- The largest power of two at or below n. -/
def pow2Below (n : Nat) : Nat := 2 ^ Nat.log2 n

def isPow2 (n : Nat) : Bool := n == pow2Below n

/-- Ring reduce-scatter: in step s, chunk (r − s − 1) goes to r + 1 and chunk (r − s − 2) arrives from r − 1. -/
def ringReduce (n r : Nat) : List Xfer :=
  (List.range (n - 1)).flatMap (fun s =>
    let c := (r + 2 * n - s - 1) % n
    let d := (r + 2 * n - s - 2) % n
    [⟨.send, s, (r + 1) % n, c, c + 1, false, false, [], [], []⟩, ⟨.reduce, s, (r + n - 1) % n, d, d + 1, false, false, [], [], []⟩])

/-- Ring all-gather, with its steps counted from `s0`. -/
def ringGather (n r s0 : Nat) : List Xfer :=
  (List.range (n - 1)).flatMap (fun s =>
    let c := (r + n - s) % n
    let d := (r + 2 * n - 1 - s) % n
    [⟨.forward, s0 + s, (r + 1) % n, c, c + 1, false, false, [], [], []⟩, ⟨.store, s0 + s, (r + n - 1) % n, d, d + 1, false, false, [], [], []⟩])

/-- Seals chunk c. -/
def sealOf (step c : Nat) : Xfer := ⟨.seal, step, 0, c, c + 1, false, false, [], [], []⟩

/-- Halving stages at distances d, d/2, … over the range [lo, hi) (R303); `k` bounds the stages. -/
def halve (r : Nat) : Nat → Nat → Nat → Nat → Nat → List Xfer
  | 0, _, _, _, _ => []
  | k + 1, step, d, lo, hi =>
    let mid := (lo + hi) / 2
    let p := r ^^^ d
    if r / d % 2 = 0 then
      [⟨.send, step, p, mid, hi, false, false, [], [], []⟩, ⟨.reduce, step, p, lo, mid, false, false, [], [], []⟩] ++ halve r k (step + 1) (d / 2) lo mid
    else
      [⟨.send, step, p, lo, mid, false, false, [], [], []⟩, ⟨.reduce, step, p, mid, hi, false, false, [], [], []⟩] ++ halve r k (step + 1) (d / 2) mid hi

/-- Recursive doubling at distances 1, 2, … (R303). -/
def doubling (r k s0 : Nat) : List Xfer :=
  (List.range k).flatMap (fun j =>
    let d := 2 ^ j
    let p := r ^^^ d
    [⟨.forward, s0 + j, p, r / d * d, r / d * d + d, false, false, [], [], []⟩, ⟨.store, s0 + j, p, p / d * d, p / d * d + d, false, false, [], [], []⟩])

/-- HALVING all-reduce, folded where N is not a power of two. -/
def halvingAll (n r : Nat) : List Xfer :=
  let p := pow2Below n
  let k := Nat.log2 n
  let f := if p = n then 0 else 1
  let last := f + 2 * k
  if p ≤ r then [⟨.send, 0, r - p, 0, p, false, false, [], [], []⟩, ⟨.store, last, r - p, 0, p, false, false, [], [], []⟩]
  else
    let fold := if r + p < n then [⟨.reduce, 0, r + p, 0, p, false, false, [], [], []⟩] else []
    let unfold' := if r + p < n then [⟨.forward, last, r + p, 0, p, false, false, [], [], []⟩] else []
    fold ++ halve r k f (p / 2) 0 p ++ [sealOf (f + k) r] ++ doubling r k (f + k) ++ unfold'

/-- A chain from ROOT in rank order. -/
def chain (n r root : Nat) : List Xfer :=
  let pos := (r + n - root) % n
  let recv := if pos = 0 then [sealOf 0 0] else [⟨.store, pos - 1, (r + n - 1) % n, 0, 1, false, false, [], [], []⟩]
  let fwd := if pos + 1 < n then [⟨.forward, pos, (r + 1) % n, 0, 1, false, false, [], [], []⟩] else []
  recv ++ fwd

/-- A binomial tree from ROOT: in round j every holder sends 2^j positions further on. -/
def binomial (n r root : Nat) : List Xfer :=
  let pos := (r + n - root) % n
  let rounds := Nat.log2 (2 * n - 1)
  let j0 := if pos = 0 then 0 else Nat.log2 pos + 1
  let recv := if pos = 0 then [sealOf 0 0]
    else [⟨.store, Nat.log2 pos, (r + n - 2 ^ Nat.log2 pos) % n, 0, 1, false, false, [], [], []⟩]
  recv ++ ((List.range rounds).filter (fun j => decide (j0 ≤ j ∧ pos + 2 ^ j < n))).map (fun j =>
    ⟨.forward, j, (r + 2 ^ j) % n, 0, 1, false, false, [], [], []⟩)

/-- The plan of an operation for a rank: op by R230, alg 1 RING or 2 HALVING. -/
def planOf (op alg n r root : Nat) : List Xfer :=
  match op with
  | 1 => if alg = 1 then ringReduce n r ++ [sealOf (n - 1) r] ++ ringGather n r (n - 1) else halvingAll n r
  | 2 => (if alg = 1 then ringReduce n r else halve r (Nat.log2 n) 0 (n / 2) 0 n) ++ [sealOf n r]
  | 3 => [sealOf 0 r] ++ (if alg = 1 then ringGather n r 0 else doubling r (Nat.log2 n) 0)
  | 4 => if alg = 1 then chain n r root else binomial n r root
  | 6 => [sealOf 0 0, ⟨.forward, 0, root, 0, 1, false, false, [], [], []⟩]
  | 7 => [⟨.store, 0, root, 0, 1, false, false, [], [], []⟩]
  | _ => []

/-- What ALG 0 resolves to (R301). -/
def resolveAlg (op alg t count n : Nat) : Nat :=
  if 5 ≤ op then 0
  else if alg ≠ 0 then alg
  else
    let small := if t = 1 then decide (count * 33 ≤ 32 * 2 ^ 20) else decide (count * tBytes t ≤ 2 ^ 20)
    if small && (op == 1 || op == 4 || isPow2 n) then 2 else 1

/-! ## Jobs -/

/-- The descriptor of a job. -/
def jobDesc (s : State) (j : Job) : List Byte :=
  match (getQueue s j.queue).flights.find? (fun f => f.index == j.index) with
  | some f => f.desc
  | none => []

def jEfmt (d : List Byte) : Nat := dNat d 0x2C 1
def jTfmt (d : List Byte) : Nat := dNat d 0x2D 1
def jRop (d : List Byte) : Nat := dNat d 0x2E 1
def jCount (d : List Byte) : Nat := dNat d 0x20 8

def sameJob (a b : Job) : Bool := a.queue == b.queue && a.index == b.index

def putJob (j : Job) (s : State) : State := { s with jobs := s.jobs.map (fun x => if sameJob x j then j else x) }

def findJob (s : State) (j : Job) : Option Job := s.jobs.find? (sameJob j)

/-- Every rank of a communicator that this device has a peer connection to. -/
def peersOf (s : State) (c : Nat) : List (Nat × Nat) :=
  ((List.range (commSize s c)).filter (· != commRank s c)).filterMap (fun r => (peerConn s c r).map (fun k => (r, k)))

/-- COLL_SEG's body header (R310). -/
def collHeader (kind tfmt opc attempt src step key seq nelem off crc sum abs dcount : Nat) : List Byte :=
  leBytes 1 kind ++ leBytes 1 tfmt ++ leBytes 1 opc ++ leBytes 1 attempt ++ leBytes 2 src ++ leBytes 2 step ++ leBytes 8 key ++
    leBytes 4 seq ++ leBytes 4 nelem ++ leBytes 8 off ++ leBytes 8 crc ++ leBytes 8 sum ++ leBytes 8 abs ++ leBytes 8 dcount

/-- OPC of a job's segments. -/
def jobOpc (d : List Byte) (j : Job) : Nat := j.op + jRop d * 16 + j.alg * 64

/-- Sends a COLL_SEG of a job to a rank on its peer connection. -/
def collSend (j : Job) (rank kind attempt step nelem off crc sum abs : Nat) (data : List Byte) (s : State) : State :=
  match peerConn s j.comm rank with
  | none => s
  | some k =>
    let d := jobDesc s j
    let h := collHeader kind (jTfmt d) (jobOpc d j) attempt j.rank step (commKey s j.comm) j.seq nelem off crc sum abs (jCount d)
    sendMsg k { type := tColl, flags := 0, dst := 0, src := k, body := h ++ data } s

/-- ABORT, with its INFO, to every rank of the communicator that has a peer connection, but for the connection an ABORT came by (R314). -/
def sendAborts (j : Job) (info : Nat) (came : Option Nat) (s : State) : State :=
  ((peersOf s j.comm).filter (fun p => came != some p.2)).foldl (fun s p => collSend j p.1 4 info 0 0 0 0 0 0 [] s) s

/-- Ends a job: with OK it completes; otherwise ABORT goes out and the communicator is BROKEN (R314). -/
def endJob (j : Job) (e : Ending) (s : State) (came : Option Nat := none) : State :=
  let s := if e.status = stOk then s
    else setF nePage Ne.broken 1 (sendAborts j (if e.status = stPeer then e.info else 0) came s) j.comm
  let fl := (getQueue s j.queue).flights.find? (fun f => f.index == j.index)
  let s := { s with jobs := s.jobs.filter (fun x => !sameJob j x) }
  match fl with
  | some f => complete j.queue f { e with nflags := j.nflags } s
  | none => s

/-- Ends a job with PEER (R317). -/
def endPeer (j : Job) (info detail : Nat) (s : State) : State := endJob j { status := stPeer, info := info, detail := detail } s

/-- INFO codes of R317. -/
def piMismatch : Nat := 1
def piSuspect : Nat := 2
def piAborted : Nat := 3
def piTimeout : Nat := 4
def piPeerLost : Nat := 5
def piNoConn : Nat := 6
def piRefused : Nat := 7

/-! ## Engine reads and writes of either memory -/

/-- The edge router by which an engine's packets reach a logical core: that of the Mere channel at the other end of the transfer (R27); where there is none,
that of the core's row on the engine's edge, the west one for the Network Engine (R25, R198; DESIGN CHOICE: no rule names the router of a row). -/
def moverEdge (s : State) (q : Nat) (far : Option Nat) (c : Nat) : EdgeRouter :=
  let side := if 96 ≤ q ∨ halfOf s q = 0 then EdgeRouter.west (coreRow c) else .east (coreRow c)
  match far with
  | some a => if mereBase ≤ a then channelEdge (chanOf s a) else side
  | none => side

/-- A scratchpad access by a party other than the core's own units counts its granules in the core's bank (code 0x18 of R485). -/
def memCount (a n : Nat) (s : State) : State := if a < mereBase then coreEv (a / spmSize) 0x18 (granuleCount a n) s else s

/-- The packets of an engine's access to n bytes of scratchpads from a, one for each 256-byte block, and the granules it reads or writes. -/
def engTraffic (q : Nat) (far : Option Nat) (a n : Nat) (write : Bool) (s : State) : State :=
  if mereBase ≤ a ∨ n = 0 then s
  else (List.range ((a + n - 1) / 256 + 1 - a / 256)).foldl (fun s i =>
    let lo := max a (256 * (a / 256 + i))
    let len := min (a + n) (256 * (a / 256 + i + 1)) - lo
    enginePackets (moverEdge s q (far.map (· + (lo - a))) (lo / spmSize)) (queHedge s q) lo len write (memCount lo len s)) s

/-- A parity error on an engine's data path (R197, R239): PARITY in the queue's page, and on data from a scratchpad UC against that core's Hedge. The failing
address is stated nowhere. -/
def engineParity (q : Nat) (reads : List (Nat × Nat)) (s : State) : Ending × State :=
  let d := draw (setErr (quePage q) Que.eParity 0 0 s)
  (dataUc d.1, match (rangeCores reads).head? with
    | some c => reportUc (pgSpm c) Spm.ePayloadParity (hedgeOfCore d.2 c) c none false d.2
    | none => d.2)

/-- A read by an engine of a Hedge number: the first failing address if any, the bytes, the state (R144, R247). -/
def engRead (h a n : Nat) (s : State) : Option Nat × List Byte × State :=
  if n = 0 then (none, [], s)
  else if a < mereBase then
    let c := a / spmSize
    let bad := (damageIn s a n).find? (fun e => e.2 ≠ 1)
    let r := spmMeetAll c false (damageIn s a n) s
    (bad.map (fun e => max a e.1), memList r.2 a n, r.2)
  else
    let bad := (blocksOf a n).find? (fun b => mcState s (chanOf s b) == mcFailed || 1 < tblGet 0 s.damage b)
    let r := mereRead (some h) a n s
    (if r.1 then none else some ((bad.map (max a)).getD a), r.2.1, r.2.2)

/-- A write by an engine. -/
def engWrite (a : Nat) (bs : List Byte) (s : State) : State :=
  if a < mereBase then memWrite a bs (mergeReads (a / spmSize) a bs.length s) else mereWrite a bs s

/-! ## Segments of a range (R309) -/

/-- JUMBO governs segments where every port has it on. -/
def jumboOn (s : State) : Bool := getF s (ethPage 0) Eth.jumbo == 1 && getF s (ethPage 1) Eth.jumbo == 1

/-- Elements a DATA segment carries at most. -/
def segMax (t : Nat) (idx jumbo : Bool) : Nat :=
  if t = 1 then (if jumbo then 7936 else 992)
  else
    let w := tBytes t + (if idx then 4 else 0)
    (if jumbo then 8192 else 1024) / w

/-- First element and length of every segment of one chunk. -/
def chunkSegs (start n m : Nat) : List (Nat × Nat) :=
  (List.range ((n + m - 1) / m)).map (fun i => (start + i * m, min m (n - i * m)))

/-- The chunk bounds of a job. -/
def jobChunk (j : Job) (c : Nat) : Nat × Nat :=
  let a := chunkStart j.total j.chunks c
  (a, chunkStart j.total j.chunks (c + 1) - a)

/-- Segments of the chunks [lo, hi). -/
def rangeSegs (s : State) (j : Job) (lo hi : Nat) : List (Nat × Nat) :=
  let d := jobDesc s j
  let m := segMax (jTfmt d) (jRop d != 0) (jumboOn s)
  (List.range (hi - lo)).flatMap (fun i => let c := jobChunk j (lo + i); chunkSegs c.1 c.2 m)

/-- Elements of the chunks [lo, hi). -/
def rangeLen (j : Job) (lo hi : Nat) : Nat := chunkStart j.total j.chunks hi - chunkStart j.total j.chunks lo

/-- Elements from `off` of a job's values. -/
def valsAt (t : Tbl (Nat × Nat)) (off n : Nat) : List (Nat × Nat) := (List.range n).map (fun i => tblGet (0, 0) t (off + i))

def putVals (off : Nat) : List (Nat × Nat) → Tbl (Nat × Nat) → Tbl (Nat × Nat)
  | [], t => t
  | v :: l, t => putVals (off + 1) l (tblPut (0, 0) t off v)

/-- Encodes values into a segment with its digests. -/
def makeSeg (d : List Byte) (vals : List (Nat × Nat)) : Seg × Nat :=
  let e := encodeSeg (jTfmt d) (jRop d != 0) vals
  (⟨vals.length, e.1, sumDigest vals, absDigest vals⟩, e.2)

/-- Sends one DATA segment. -/
def sendSeg (j : Job) (x : Xfer) (off attempt : Nat) (g : Seg) (s : State) : State :=
  sentSeg (collSend j x.peer 0 attempt x.step g.n off (crc64 g.data) (daContainer g.sum) (daContainer g.mag) g.data s)

/-- The sender of a range has nothing more to wait for: an empty range carries no segment and needs no CONFIRM. -/
def xDone (j : Job) (x : Xfer) : Bool :=
  match x.kind with
  | .seal => x.fin
  | .send | .forward => x.fin && (x.conf || rangeLen j x.lo x.hi == 0)
  | .reduce | .store => x.fin || rangeLen j x.lo x.hi == 0

def isRecv (x : Xfer) : Bool :=
  match x.kind with
  | .reduce | .store => true
  | _ => false

/-- One item of a job's plan whose earlier receives are complete: seals its range, or sends it once the peer's READY is there. -/
def runItem (i : Nat) (x : Xfer) (j : Job) (s : State) : Job × State :=
  let d := jobDesc s j
  match x.kind with
  | .seal =>
    if x.fin then (j, s)
    else
      let j := (rangeSegs s j x.lo x.hi).foldl (fun j g =>
        let m := makeSeg d (valsAt j.vals g.1 g.2)
        let back := decodeSeg (jTfmt d) (jRop d != 0) g.2 m.1.data
        { j with segs := j.segs.filter (fun e => e.1 != g.1) |> tblInsert g.1 m.1, vals := putVals g.1 back j.vals,
                 nflags := j.nflags ||| m.2 }) j
      ({ j with plan := j.plan.set i { x with fin := true } }, s)
  | .send =>
    if x.fin ∨ x.peer ∉ j.ready then (j, s)
    else
      let gs := rangeSegs s j x.lo x.hi
      let copy := gs.foldl (fun t g => putVals g.1 (valsAt j.vals g.1 g.2) t) []
      let r := gs.foldl (fun (a : Job × State) g =>
        let m := makeSeg d (valsAt j.vals g.1 g.2)
        ({ a.1 with nflags := a.1.nflags ||| m.2 }, sendSeg a.1 x g.1 0 m.1 a.2)) (j, s)
      ({ r.1 with plan := r.1.plan.set i { x with fin := true, copy := copy } }, r.2)
  | .forward =>
    if x.fin ∨ x.peer ∉ j.ready then (j, s)
    else
      let s := (rangeSegs s j x.lo x.hi).foldl (fun s g =>
        match tblFind g.1 j.segs with
        | some m => sendSeg j x g.1 0 m s
        | none => s) s
      ({ j with plan := j.plan.set i { x with fin := true } }, s)
  | _ => (j, s)

/-- Runs a plan's items in order, as far as its receives allow; `n` bounds the items. -/
def runPlan : Nat → Nat → Job → State → Job × State
  | 0, _, j, s => (j, s)
  | n + 1, i, j, s =>
    match j.plan[i]? with
    | none => (j, s)
    | some x =>
      if (j.plan.take i).any (fun y => isRecv y && !xDone j y) then (j, s)
      else
        let r := runItem i x j s
        runPlan n (i + 1) r.1 r.2

/-- Ranks a job receives from, and ranks it sends to. -/
def recvFrom (j : Job) : List Nat :=
  if j.op = 5 then (List.range j.size).filter (· != j.rank)
  else ((j.plan.filter isRecv).map (fun x => x.peer)).eraseDups

def sendsTo (j : Job) : List Nat :=
  if j.op = 5 then (List.range j.size).filter (· != j.rank)
  else ((j.plan.filter (fun x => x.kind == .send || x.kind == .forward)).map (fun x => x.peer)).eraseDups

/-- READY to every rank this job receives from whose connection is open (R313). -/
def tellReady (j : Job) (s : State) : Job × State :=
  ((recvFrom j).filter (fun r => decide (r ∉ j.told))).foldl (fun (a : Job × State) r =>
    match peerConn a.2 j.comm r with
    | some k =>
      if (getConn a.2 k).state = .opened then
        let first := match j.plan.find? (fun x => isRecv x && x.peer == r) with
          | some x => (x.step, chunkStart j.total j.chunks x.lo, rangeLen j x.lo x.hi)
          | none => (0, 0, 0)
        ({ a.1 with told := a.1.told ++ [r] }, collSend j r 1 0 first.1 first.2.2 first.2.1 0 0 0 [] a.2)
      else a
    | none => a) (j, s)

/-! ## Shuffle (R306, R307) -/

/-- The key of a record. -/
def recKey (d : List Byte) (rec' : List Byte) : Nat := leNat (rec'.take (if (dNat d 0x32 2).testBit 0 then 8 else 4))

/-- The rank a key goes to. -/
def keyRank (range : Bool) (splits : List Nat) (n key : Nat) : Nat :=
  if range then (splits.filter (fun x => decide (x ≤ key))).length else key % n

/-- Splitters are non-decreasing. -/
def rising : List Nat → Bool
  | [] => true
  | [_] => true
  | a :: b :: t => decide (a ≤ b) && rising (b :: t)

/-- COUNTS, then records, to every rank that is ready and has not been sent to; the records of a rank go in full segments. -/
def shuffleSend (j : Job) (s : State) : Job × State :=
  let d := jobDesc s j
  let rb := dNat d 0x30 2
  let per := max 1 ((if jumboOn s then 8192 else 1024) / max 1 rb)
  ((sendsTo j).filter (fun r => decide (r ∈ j.ready ∧ r ∉ j.sentTo))).foldl (fun (a : Job × State) r =>
    let recs := tblGet [] j.outRec r
    let s := collSend j r 5 0 0 1 recs.length 0 0 0 [] a.2
    let s := (List.range ((recs.length + per - 1) / per)).foldl (fun s i =>
      let part := (recs.drop (i * per)).take per
      sentSeg (collSend j r 0 0 0 part.length (i * per) (crc64 part.flatten) 0 0 part.flatten s)) s
    ({ a.1 with sentTo := a.1.sentTo ++ [r] }, s)) (j, s)

/-- The records received from a rank, in the order of their offsets. -/
def recsFrom (j : Job) (r : Nat) : List (List Byte) := (tblGet [] j.inRec r).flatMap (fun e => e.2)

/-- Everything of a shuffle has arrived and is confirmed. -/
def shuffleDone (j : Job) : Bool :=
  (recvFrom j).all (fun r => match tblFind r j.counts with
    | some n => n == (recsFrom j r).length && decide (r ∈ j.sentTo) &&
        ((tblGet [] j.outRec r).isEmpty || decide (r ∈ j.conf))
    | none => false)

/-- DST of a shuffle: N counts padded to 64 B, then the records in ascending source rank, at most CAP of them. -/
def shuffleBytes (d : List Byte) (j : Job) : List Byte :=
  let inOf := fun r => if r = j.rank then tblGet [] j.outRec r else recsFrom j r
  let counts := padTo 64 ((List.range j.size).flatMap (fun r => leBytes 4 (inOf r).length))
  counts ++ (((List.range j.size).flatMap inOf).take (dNat d 0x34 4)).flatten

/-! ## Completion (R304, R314) -/

/-- The elements DST receives, as first element and length. -/
def dstRange (j : Job) : Nat × Nat :=
  match j.op with
  | 2 => jobChunk j j.rank
  | 6 => (0, 0)
  | _ => (0, j.total)

/-- Bytes of an element in EFMT. -/
def eBytes (e : Nat) : Nat := codeBytes e

/-- A value rounded to EFMT once, saturation off (R53, R54). -/
def toEfmt (e c : Nat) : List Byte × Nat :=
  match fmtOf e with
  | some .da48 => (leBytes 8 (daContainer (daCanon c)), if numIsNan (daVal c) then flagNanOut else 0)
  | some f => let r := fround (fspec f) false (daVal c); (leBytes (fmtBytes f) r.1, r.2)
  | none => ([], 0)

/-- Writes DST, and IDX_DST where it is asked for. -/
def writeDst (j : Job) (s : State) : Job × State :=
  let d := jobDesc s j
  let put := fun (a : Nat) (bs : List Byte) (s : State) => engTraffic j.queue none a bs.length true (engWrite a bs s)
  if j.op = 5 then (j, put (dNat d 0x18 8) (shuffleBytes d j) s)
  else
    let r := dstRange j
    let es := (valsAt j.vals r.1 r.2).map (fun v => (toEfmt (jEfmt d) v.1, v.2))
    let j := { j with nflags := es.foldl (fun f e => f ||| e.1.2) j.nflags }
    let s := put (dNat d 0x18 8) (es.flatMap (fun e => e.1.1)) s
    let s := if jRop d ≠ 0 then put (dNat d 0x38 8) (es.flatMap (fun e => leBytes 4 e.2)) s else s
    (j, s)

/-- Every step of a job is done, and its READYs have gone both ways. -/
def jobDone (j : Job) : Bool :=
  if j.op = 5 then shuffleDone j
  else j.plan.all (xDone j) && (sendsTo j).all (fun r => decide (r ∈ j.ready)) && (recvFrom j).all (fun r => decide (r ∈ j.told))

/-- Ranges of SRC, with those of the index list and the splitters of a descriptor of this device (R230). -/
def neReads (d : List Byte) (n r : Nat) : List (Nat × Nat) :=
  let op := dOp d
  let count := jCount d
  let key := if (dNat d 0x32 2).testBit 0 then 8 else 4
  if op = 5 then [(dNat d 0x10 8, count * dNat d 0x30 2)] ++ (if (dNat d 0x32 2).testBit 1 then [(dNat d 0x38 8, (n - 1) * key)] else [])
  else (if op = 7 ∨ (op = 4 ∧ dNat d 0x2A 2 ≠ r) then [] else [(dNat d 0x10 8, count * eBytes (jEfmt d))]) ++
    (if jRop d = 0 ∨ dNat d 0x30 8 = 0 then [] else [(dNat d 0x30 8, 4 * count)])

/-- Ranges of DST and of its indices. -/
def neWrites (d : List Byte) (n r : Nat) : List (Nat × Nat) :=
  let op := dOp d
  let count := jCount d
  let dstN := if op = 2 then chunkStart count n (r + 1) - chunkStart count n r else if op = 3 then n * count else count
  if op = 5 then [(dNat d 0x18 8, (4 * n + 63) / 64 * 64 + dNat d 0x34 4 * dNat d 0x30 2)]
  else (if op = 6 then [] else [(dNat d 0x18 8, dstN * eBytes (jEfmt d))]) ++ (if jRop d = 0 then [] else [(dNat d 0x38 8, 4 * dstN)])

/-- Ranges a descriptor names on this device, with the rank table and the work area (R203, R230, R293). -/
def neRanges (s : State) (d : List Byte) (c n r : Nat) : List (Nat × Nat) :=
  let table := if n = 1 then [] else [(commTable s c, 32 * n)]
  let work := if dOp d = 1 ∨ dOp d = 2 then [(commWork s c, getF s nePage Ne.workMib c * 2 ^ 20)] else []
  neReads d n r ++ neWrites d n r ++ table ++ work

/-- A job reads or writes scratchpads (R217, R226). -/
def jobTouches (s : State) (j : Job) : Bool :=
  let d := jobDesc s j
  !(spmRanges (neReads d j.size j.rank ++ neWrites d j.size j.rank)).isEmpty

/-- Moves a job on as far as its peers allow. Its writes to scratchpads wait while its Hedge is FROZEN (R226, R316) and until sleeping clusters have woken (R146). -/
def advanceJob (j : Job) (s : State) : State :=
  let a := tellReady j s
  let b := if j.op = 5 then shuffleSend a.1 a.2 else runPlan (a.1.plan.length + 1) 0 a.1 a.2
  if jobDone b.1 then
    let out := neWrites (jobDesc s j) j.size j.rank
    if spmFrozen b.2 (queHedge b.2 j.queue) out then putJob b.1 b.2
    else if anyAsleep b.2 (rangeCores out) then wakeCores (rangeCores out) (putJob b.1 b.2)
    else
      let w := writeDst b.1 b.2
      endJob w.1 {} w.2
  else putJob b.1 b.2

/-- Moves every job on: a peer connection has opened, or a freeze has ended. -/
def advanceJobs (s : State) : State := s.jobs.foldl (fun s j => advanceJob j s) s

/-! ## Start (R296 to R300) -/

/-- The checks of a descriptor against its communicator (R300): the first bad field. -/
def neCommBad (s : State) (q : Nat) (d : List Byte) : Option Nat :=
  let c := dNat d 0x28 2
  let n := commSize s c
  let op := dOp d
  let reduce := op == 1 || op == 2
  firstBad [(0x28, commValid s c = false ∨ getF s nePage Ne.queue c ≠ q - 96 ∨ commHedge s c ≠ queHedge s q),
    (0x2A, (op = 4 ∨ op = 6 ∨ op = 7) ∧ n ≤ dNat d 0x2A 2),
    (0x20, reduce = true ∧ getF s nePage Ne.workMib c * 2 ^ 20 < 16 * jCount d + 2 ^ 20),
    (0x2F, (op = 2 ∨ op = 3) ∧ dNat d 0x2F 1 = 2 ∧ isPow2 n = false)]

/-- Opens the peer connections a job needs; the first rank that has none free. -/
def connectPeers (c : Nat) : List Nat → State → Option Nat × State
  | [], s => (none, s)
  | r :: t, s =>
    match peerConn s c r with
    | some _ => connectPeers c t s
    | none =>
      let o := openConn 1 (rankAddrs s c r) s
      match o.1 with
      | none => (some r, o.2)
      | some _ => connectPeers c t o.2

/-- Reads elements of EFMT as DA48, each with its index. -/
def readElems (d : List Byte) (rank : Nat) (bytes idx : List Byte) (n : Nat) : List (Nat × Nat) :=
  let e := jEfmt d
  let w := eBytes e
  (List.range n).map (fun i =>
    let code := leNat ((bytes.drop (i * w)).take w)
    let v := match fmtOf e with
      | some f => daOfFmt f code
      | none => 0
    (v, if jRop d = 0 then 0 else if dNat d 0x30 8 = 0 then rank else leNat ((idx.drop (4 * i)).take 4)))

/-- The records of a SHUFFLE by the rank they go to, read from SRC with the splitters: a failing address, the offset of a bad field, the records (R306). -/
def shuffleRecs (q : Nat) (d : List Byte) (n : Nat) (s : State) : Option Nat × Option Nat × Tbl (List (List Byte)) × State :=
  let h := queHedge s q
  let rb := dNat d 0x30 2
  let count := jCount d
  let kb := if (dNat d 0x32 2).testBit 0 then 8 else 4
  let range := (dNat d 0x32 2).testBit 1
  let src := engRead h (dNat d 0x10 8) (count * rb) s
  let spl := engRead h (dNat d 0x38 8) (if range then (n - 1) * kb else 0) src.2.2
  let splits := (List.range (n - 1)).map (fun i => leNat ((spl.2.1.drop (i * kb)).take kb))
  let recs := (List.range count).map (fun i => (src.2.1.drop (i * rb)).take rb)
  (minBad src.1 spl.1, if range && !rising splits then some 0x38 else none,
    recs.foldl (fun t x =>
      let k := keyRank range splits n (recKey d x)
      tblPut [] t k (tblGet [] t k ++ [x])) [], spl.2.2)

/-- The elements of SRC with their indices: a failing address, the offset of a bad field, the elements (R298, R305). -/
def readSrc (q : Nat) (d : List Byte) (r first n : Nat) (s : State) : Option Nat × Option Nat × List (Nat × Nat) × State :=
  let h := queHedge s q
  let w := eBytes (jEfmt d)
  let src := engRead h (dNat d 0x10 8 + first * w) (n * w) s
  let idx := engRead h (dNat d 0x30 8 + 4 * first) (if jRop d ≠ 0 ∧ dNat d 0x30 8 ≠ 0 then 4 * n else 0) src.2.2
  let elems := readElems d r src.2.1 idx.2.1 n
  (minBad src.1 idx.1, if jRop d ≠ 0 ∧ elems.any (fun v => decide (v.2 = 0xFFFFFFFF)) then some 0x30 else none, elems, idx.2.2)

/-- The place of a descriptor in its communicator's sequence: CSEQ for a collective, the count of its peer and direction for SEND and RECV. Answers the
number and the state with the next one (R294, R296, R300). -/
def takeSeq (op c peer : Nat) (s : State) : Nat × State :=
  if op < 6 then
    let seq := tblGet 0 s.cseq c
    (seq, { s with cseq := tblPut 0 s.cseq c ((seq + 1) % 2 ^ 32) })
  else
    let key := (2 * c + (op - 6)) * 2048 + peer
    let seq := tblGet 0 s.p2pSeq key
    (seq, { s with p2pSeq := tblPut 0 s.p2pSeq key ((seq + 1) % 2 ^ 32) })

/-- Two descriptors that take numbers of one sequence: collectives of a communicator, or transfers of one direction with one peer. -/
def sameSeq (d e : List Byte) : Bool :=
  dNat d 0x28 2 == dNat e 0x28 2 && (if dOp d < 6 then decide (dOp e < 6) else dOp e == dOp d && dNat d 0x2A 2 == dNat e 0x2A 2)

/-- A descriptor that has started in its queue and is no job yet. -/
def jobless (s : State) (q : Nat) (f : Flight) : Bool := f.started && !s.jobs.any (fun j => j.queue == q && j.index == f.index)

/-- The READYs that came before a job of a sequence number started (R313). -/
def earlyReady (op c seq peer : Nat) (e : Nat × Nat × Nat × Nat) : Bool :=
  e.1 == c && e.2.2.1 == seq && (if op < 6 then decide (e.2.2.2 < 6) else e.2.1 == peer && e.2.2.2 == 13 - op)

/-- A descriptor of the Network Engine begins: its place in the sequence, its reads, and its job. -/
def beginJob (q : Nat) (f : Flight) (parityBad : Bool) (s : State) : State :=
  let d := f.desc
  let op := dOp d
  let c := dNat d 0x28 2
  let n := commSize s c
  let r := commRank s c
  let peer := dNat d 0x2A 2
  let count := jCount d
  let alg := resolveAlg op (dNat d 0x2F 1) (jTfmt d) count n
  let fail := rangesFail s (queHedge s q) (neRanges s d c n r)
  let ts := takeSeq op c peer s
  let seq := ts.1
  let s := ts.2
  let chunkN := match op with
    | 1 => if alg = 1 then n else pow2Below n
    | 2 => n
    | 3 => n
    | _ => 1
  let early := (s.readys.filter (earlyReady op c seq peer)).map (fun e => e.2.1)
  let j : Job := ⟨q, f.index, c, op, alg, seq, n, r, peer, chunkN, if op = 3 then n * count else count, planOf op alg n r peer, [], [], 0, early, [], [], [], [], [],
    [], s.now⟩
  let s := { s with readys := s.readys.filter (fun e => !earlyReady op c seq peer e), jobs := s.jobs ++ [j] }
  match fail with
  | some a => endJob j (denied a) s
  | none =>
    let s := (neReads d n r).foldl (fun s x => engTraffic q none x.1 x.2 false s) s
    if parityBad then
      let p := engineParity q (neReads d n r) s
      endJob j p.1 p.2
    else
      let noSrc := op == 7 || (op == 4 && peer != r)
      let sh := if op = 5 then shuffleRecs q d n s else (none, none, [], s)
      let el := if op = 5 then (none, none, [], sh.2.2.2) else readSrc q d r 0 (if noSrc then 0 else count) s
      let s := el.2.2.2
      match minBad sh.1 el.1 with
      | some a => endJob j (dataUc a) s
      | none =>
        match minBad sh.2.1 el.2.1 with
        | some off => endJob j { status := stDescInvalid, detail := off } s
        | none =>
          let j := { j with vals := putVals (if op = 3 then r * count else 0) el.2.2.1 [], outRec := sh.2.2.1 }
          let o := connectPeers c (recvFrom j ++ sendsTo j).eraseDups (putJob j s)
          match o.1 with
          | some miss => endPeer j piNoConn miss o.2
          | none => advanceJob j o.2

/-- A started descriptor of the Network Engine gets its checks and begins. One that an earlier descriptor of its sequence precedes waits, and so does a second
collective on a communicator (R296), one that reads scratchpads of a FROZEN Hedge (R226), and one that reads a sleeping core (R146). -/
def startJob (q op : Nat) (parityBad : Bool) (s : State) : State :=
  match (getQueue s q).flights.find? (fun f => jobless s q f && dOp f.desc == op) with
  | none => s
  | some f =>
    let d := f.desc
    let c := dNat d 0x28 2
    let before := ((getQueue s q).flights.takeWhile (fun x => x.index != f.index)).any (fun x => jobless s q x && sameSeq d x.desc)
    let running := decide (op < 6) && s.jobs.any (fun j => j.comm == c && decide (j.op < 6))
    if engineOf q ≠ .network ∨ before = true ∨ running = true then s
    else match neCommBad s q d with
      | some off => complete q f { status := stDescInvalid, detail := off } s
      | none =>
        let reads := neReads d (commSize s c) (commRank s c)
        let cores := rangeCores reads
        let passes := (rangesFail s (queHedge s q) (neRanges s d c (commSize s c) (commRank s c))).isNone
        if getF s nePage Ne.broken c = 1 then complete q f { status := stPeer, info := piAborted } s
        else if passes && spmFrozen s (queHedge s q) reads then s
        else if passes && anyAsleep s cores then wakeCores cores s
        else beginJob q f parityBad s

def execAllReduce (q : Run QueueId) (s : State) : Host.Outcome State Fault Refusal := Host.Outcome.next (startJob q.unit 1 q.bad s)
def execReduceScatter (q : Run QueueId) (s : State) : Host.Outcome State Fault Refusal := Host.Outcome.next (startJob q.unit 2 q.bad s)
def execAllGather (q : Run QueueId) (s : State) : Host.Outcome State Fault Refusal := Host.Outcome.next (startJob q.unit 3 q.bad s)
def execBroadcast (q : Run QueueId) (s : State) : Host.Outcome State Fault Refusal := Host.Outcome.next (startJob q.unit 4 q.bad s)
def execShuffle (q : Run QueueId) (s : State) : Host.Outcome State Fault Refusal := Host.Outcome.next (startJob q.unit 5 q.bad s)
def execSend (q : Run QueueId) (s : State) : Host.Outcome State Fault Refusal := Host.Outcome.next (startJob q.unit 6 q.bad s)
def execRecv (q : Run QueueId) (s : State) : Host.Outcome State Fault Refusal := Host.Outcome.next (startJob q.unit 7 q.bad s)

/-! ## Segments that arrive (R311 to R314) -/

/-- Fields of a COLL_SEG's body. -/
def cKind (b : List Byte) : Nat := bNat b 0 1
def cTfmt (b : List Byte) : Nat := bNat b 1 1
def cOpc (b : List Byte) : Nat := bNat b 2 1
def cAttempt (b : List Byte) : Nat := bNat b 3 1
def cSrc (b : List Byte) : Nat := bNat b 4 2
def cStep (b : List Byte) : Nat := bNat b 6 2
def cKey (b : List Byte) : Nat := bNat b 8 8
def cSeq (b : List Byte) : Nat := bNat b 0x10 4
def cNelem (b : List Byte) : Nat := bNat b 0x14 4
def cOff (b : List Byte) : Nat := bNat b 0x18 8
def cCrc (b : List Byte) : Nat := bNat b 0x20 8
def cSum (b : List Byte) : Nat := bNat b 0x28 8
def cAbs (b : List Byte) : Nat := bNat b 0x30 8
def cDcount (b : List Byte) : Nat := bNat b 0x38 8
def cData (b : List Byte) : List Byte := b.drop 64

/-- The valid communicator a segment's key names, where the connection is mapped to its SRC_RANK. -/
def segComm (s : State) (k : Nat) (b : List Byte) : Option Nat :=
  firstBelow 64 (fun c => commValid s c && commKey s c == cKey b && decide (cSrc b < commSize s c) && connIsRank s k c (cSrc b))

/-- The job in progress that a segment belongs to: a collective by CSEQ, a transfer by peer, direction and sequence number. -/
def segJob (s : State) (c : Nat) (b : List Byte) : Option Job :=
  let op := cOpc b % 16
  s.jobs.find? (fun j => j.comm == c && j.seq == cSeq b &&
    (if 6 ≤ op then j.op == 13 - op && j.peer == cSrc b else decide (j.op < 6)))

/-- The oldest delivered message of a connection, taken where it is a COLL_SEG of the kind. -/
def takeSeg (k kind : Nat) (s : State) : Option (List Byte × State) :=
  let c := getConn s k
  match c.inbox with
  | w :: rest =>
    if w.type = tColl ∧ cKind w.body = kind then some (w.body, putConn k { c with inbox := rest } s) else none
  | [] => none

/-- A segment of a kind arrives: without a job it is dropped and counted (R313). -/
def onSeg (k kind : Nat) (act : Job → List Byte → State → State) (s : State) : State :=
  match takeSeg k kind s with
  | none => s
  | some (b, s) =>
    match segComm s k b with
    | none => addF nePage Ne.unmatched 1 s
    | some c =>
      match segJob s c b with
      | none => addF nePage Ne.unmatched 1 s
      | some j => act { j with last := s.now } b s

/-- Both checks of a DATA segment (R311): 0 good, 1 the CRC failed, 2 the sum check failed, 3 good with the sum check skipped. -/
def segCheck (d b : List Byte) : Nat :=
  if crc64 (cData b) ≠ cCrc b then 1
  else if dOp d = 5 then 0
  else
    let vals := decodeSeg (jTfmt d) (jRop d != 0) (cNelem b) (cData b)
    match sumCheck (jTfmt d) (cNelem b) (cData b) vals (daOfContainer (cSum b)) (daOfContainer (cAbs b)) with
    | none => 3
    | some true => 0
    | some false => 2

/-- A failed check: RESEND once for the range, and the sender is suspect the second time (R312). -/
def segBad (j : Job) (b : List Byte) (check : Nat) (s : State) : State :=
  let s := addF nePage (if check = 1 then Ne.crcMm else Ne.sumMm) 1 (setErr nePage Ne.eDigestMismatch 0 0 s)
  if cAttempt b = 0 then
    putJob j (addF nePage Ne.resendCnt 1 (collSend j (cSrc b) 3 0 (cStep b) (cNelem b) (cOff b) 0 0 0 [] s))
  else
    let ck := if check = 1 then 0 else 1
    let s := setF nePage Ne.suspComm j.comm (setF nePage Ne.suspRank (cSrc b) (setF nePage Ne.suspCheck ck (setF nePage Ne.suspValid 1 s)))
    endPeer j piSuspect (cSrc b + ck * 2 ^ 12) (setErr nePage Ne.eSuspect 0 0 s)

/-- Adds received values to the ones held, or selects by ROP (R302, R305). -/
def combineVals (rop : Nat) (old new : List (Nat × Nat)) : List (Nat × Nat) × Nat :=
  let l := (old.zip new).map (fun p =>
    if rop = 0 then let r := daAdd p.2.1 p.1.1; ((r.1, 0), r.2)
    else
      let pick := if rop = 1 then maxPick else minPick
      let w := pick (daVal p.2.1, p.2.1, p.2.2) (daVal p.1.1, p.1.1, p.1.2)
      ((if numIsNan w.1 then daNan else w.2.1, w.2.2), 0))
  (l.map (fun x => x.1), l.foldl (fun f x => f ||| x.2) 0)

/-- A DATA segment that passed its checks: reduced or kept; the step's CONFIRM goes out with its last segment. -/
def acceptData (j : Job) (b : List Byte) (s : State) : State :=
  let d := jobDesc s j
  match j.plan.findIdx? (fun x => isRecv x && x.peer == cSrc b && x.step == cStep b && !x.fin) with
  | none => addF nePage Ne.unmatched 1 s
  | some i =>
    match j.plan[i]? with
    | none => s
    | some x =>
      if cOff b ∈ x.got then putJob j s
      else
        let vals := decodeSeg (jTfmt d) (jRop d != 0) (cNelem b) (cData b)
        let r := match x.kind with
          | .reduce => combineVals (jRop d) (valsAt j.vals (cOff b) (cNelem b)) vals
          | _ => (vals, 0)
        let seg : Seg := ⟨cNelem b, cData b, daOfContainer (cSum b), daOfContainer (cAbs b)⟩
        let got := x.got ++ [cOff b]
        let all := decide ((rangeSegs s j x.lo x.hi).length ≤ got.length)
        let j := { j with vals := putVals (cOff b) r.1 j.vals, nflags := j.nflags ||| r.2,
                          segs := if x.kind = .store then tblInsert (cOff b) seg j.segs else j.segs,
                          plan := j.plan.set i { x with got := got, fin := all } }
        let s := gotSeg (putJob j s)
        let s := if all then collSend j (cSrc b) 2 0 x.step (rangeLen j x.lo x.hi) (chunkStart j.total j.chunks x.lo) 0 0 0 [] s else s
        advanceJob j s

/-- A shuffle's records take their place among their sender's; one that was asked for again comes after later ones (R312). -/
def acceptRecords (j : Job) (b : List Byte) (s : State) : State :=
  let d := jobDesc s j
  let parts := tblGet [] j.inRec (cSrc b)
  if (tblFind (cOff b) parts).isSome ∨ cNelem b = 0 then putJob j s
  else
    let j := { j with inRec := tblPut [] j.inRec (cSrc b) (tblInsert (cOff b) (chunks (max 1 (dNat d 0x30 2)) (cNelem b) (cData b)) parts) }
    let n := (recsFrom j (cSrc b)).length
    let s := gotSeg (putJob j s)
    let s := if tblFind (cSrc b) j.counts = some n then collSend j (cSrc b) 2 0 0 n 0 0 0 0 [] s else s
    advanceJob j s

/-- DATA: parameters that differ from the receiver's end it with MISMATCH; then the checks of R311. -/
def onData (j : Job) (b : List Byte) (s : State) : State :=
  let d := jobDesc s j
  let opc := if j.op = 7 then 6 else jobOpc d j
  if cOpc b ≠ opc ∨ cTfmt b ≠ jTfmt d ∨ cDcount b ≠ jCount d then endPeer j piMismatch (cSrc b) s
  else
    match segCheck d b with
    | 1 => segBad j b 1 s
    | 2 => segBad j b 2 s
    | k =>
      let s := if k = 3 then addF nePage Ne.sumSkip 1 s else s
      if j.op = 5 then acceptRecords j b s else acceptData j b s

def execCollData (k : ConnId) (s : State) : Host.Outcome State Fault Refusal := Host.Outcome.next (onSeg k 0 onData s)

/-- READY: kept for a collective that has not started here; else the sender may send to that rank (R313). One that names no communicator here is
dropped; R313 counts no READY. -/
def onReady (k : Nat) (s : State) : State :=
  match takeSeg k 1 s with
  | none => s
  | some (b, s) =>
    match segComm s k b with
    | none => s
    | some c =>
      match segJob s c b with
      | none => { s with readys := s.readys ++ [(c, cSrc b, cSeq b, cOpc b % 16)] }
      | some j => advanceJob { j with ready := if cSrc b ∈ j.ready then j.ready else j.ready ++ [cSrc b], last := s.now } s

def execCollReady (k : ConnId) (s : State) : Host.Outcome State Fault Refusal := Host.Outcome.next (onReady k s)

/-- CONFIRM for a step: the sends of that step to the rank are confirmed. -/
def onConfirm (j : Job) (b : List Byte) (s : State) : State :=
  if j.op = 5 then advanceJob { j with conf := if cSrc b ∈ j.conf then j.conf else j.conf ++ [cSrc b] } s
  else
    advanceJob { j with plan := j.plan.map (fun x =>
      if !isRecv x && x.kind != .seal && x.peer == cSrc b && x.step == cStep b then { x with conf := true, copy := [] } else x) } s

def execConfirm (k : ConnId) (s : State) : Host.Outcome State Fault Refusal := Host.Outcome.next (onSeg k 2 onConfirm s)

/-- The values of a segment that is sent again come from SRC: nothing received before the transfer went into its range (R312). -/
def fromSrc (j : Job) (i : Nat) (x : Xfer) : Bool := !(j.plan.take i).any (fun y => isRecv y && decide (y.lo < x.hi ∧ x.lo < y.hi))

/-- RESEND: the sender reads the range again, from SRC or from the work area it keeps, encodes it again and sends it with ATTEMPT 1 (R312). A forwarded
segment lies in the work area as it arrived. -/
def onResend (j : Job) (b : List Byte) (s : State) : State :=
  let d := jobDesc s j
  if j.op = 5 then
    let r := shuffleRecs j.queue d j.size s
    match r.1 with
    | some a => endJob j (dataUc a) r.2.2.2
    | none =>
      let part := ((tblGet [] r.2.2.1 (cSrc b)).drop (cOff b)).take (cNelem b)
      putJob j (sentSeg (collSend j (cSrc b) 0 1 0 part.length (cOff b) (crc64 part.flatten) 0 0 part.flatten r.2.2.2))
  else
    match j.plan.findIdx? (fun x => !isRecv x && x.kind != .seal && x.peer == cSrc b && x.step == cStep b && x.fin) with
    | none => putJob j s
    | some i =>
      match j.plan[i]? with
      | none => putJob j s
      | some x =>
        if fromSrc j i x then
          let r := readSrc j.queue d j.rank (cOff b - (if j.op = 3 then j.rank * jCount d else 0)) (cNelem b) s
          match r.1 with
          | some a => endJob j (dataUc a) r.2.2.2
          | none =>
            let m := makeSeg d r.2.2.1
            putJob { j with nflags := j.nflags ||| m.2 } (sendSeg j x (cOff b) 1 m.1 r.2.2.2)
        else
          match (if x.kind = .forward then tblFind (cOff b) j.segs else some (makeSeg d (valsAt x.copy (cOff b) (cNelem b))).1) with
          | some g => putJob j (sendSeg j x (cOff b) 1 g s)
          | none => putJob j s

def execResend (k : ConnId) (s : State) : Host.Outcome State Fault Refusal := Host.Outcome.next (onSeg k 3 onResend s)

/-- ABORT for a SEQ in progress ends it with PEER ABORTED, and goes on to this rank's own peers. Any other is dropped. -/
def onAbort (k : Nat) (s : State) : State :=
  match takeSeg k 4 s with
  | none => s
  | some (b, s) =>
    match segComm s k b with
    | none => s
    | some c =>
      match segJob s c b with
      | none => s
      | some j => endJob j { status := stPeer, info := piAborted, detail := cSrc b + cAttempt b * 2 ^ 16 } s (some k)

def execAbort (k : ConnId) (s : State) : Host.Outcome State Fault Refusal := Host.Outcome.next (onAbort k s)

/-- COUNTS: how many records a rank sends here; with none, or with all there, the CONFIRM goes out. -/
def onCounts (j : Job) (b : List Byte) (s : State) : State :=
  if j.op ≠ 5 then addF nePage Ne.unmatched 1 s
  else
    let j := { j with counts := (j.counts.filter (fun e => e.1 != cSrc b)) |> tblInsert (cSrc b) (cOff b) }
    let s := putJob j s
    let s := if 0 < cOff b ∧ (recsFrom j (cSrc b)).length = cOff b then collSend j (cSrc b) 2 0 0 (cOff b) 0 0 0 0 [] s else s
    advanceJob j s

def execCounts (k : ConnId) (s : State) : Host.Outcome State Fault Refusal := Host.Outcome.next (onSeg k 5 onCounts s)

/-- The lowest rank a job waits for. -/
def awaited (j : Job) : Nat :=
  let w := if j.op = 5 then (recvFrom j).filter (fun r => !(match tblFind r j.counts with
      | some n => n == (recsFrom j r).length
      | none => false) || !decide (r ∈ j.conf))
    else (j.plan.filter (fun x => !xDone j x && x.kind != .seal)).map (fun x => x.peer)
  w.foldl min (w.headD 0)

/-- COLL_TIMEOUT: nothing has arrived for COLL_TIMEOUT_MS (R314). -/
def collTimeout (q i : Nat) (s : State) : State :=
  match s.jobs.find? (fun j => j.queue == q && j.index == i) with
  | none => s
  | some j =>
    if j.last + getF s nePage Ne.timeoutMs * msEdges ≤ s.now then endPeer j piTimeout (awaited j) s else s

def execCollTimeout (q : QueueId) (index : Word32) (s : State) : Host.Outcome State Fault Refusal :=
  Host.Outcome.next (collTimeout q index.toNat s)

/-- A peer connection closed: each job that needs its rank ends with PEER_LOST, or REFUSED where its SYN was refused (R316, R317). -/
def jobsLosePeer (k info : Nat) (s : State) : State :=
  s.jobs.foldl (fun s j =>
    match (recvFrom j ++ sendsTo j).find? (fun r => connIsRank s k j.comm r) with
    | some r => endPeer j info r s
    | none => s) s

/-! ## Communicator entries (R294) -/

/-- COMM_W0 to COMM_W7 fields by word. -/
def commFields : Nat → List Field
  | 0 => [Ne.hedge, Ne.queue, Ne.size]
  | 1 => [Ne.rank, Ne.workMib]
  | 2 => [Ne.keyLo]
  | 3 => [Ne.keyHi]
  | 4 => [Ne.rankTabLo]
  | 5 => [Ne.rankTabHi]
  | 6 => [Ne.workLo]
  | _ => [Ne.workHi]

/-- Who may write an entry (R201, R294): the owner of a valid entry's Hedge number; of an entry that is not valid, its number's owner, who must own the number
that word 0 writes; where its number has no owner, word 0 by a connection that owns the number it writes. -/
def mayWriteComm (s : State) (conn c w v : Nat) : Bool :=
  let owner := ownsHedge s conn (commHedge s c)
  if commValid s c ∨ w ≠ 0 then owner
  else (owner || (getHedge s (commHedge s c)).owner.isNone) && ownsHedge s conn (bitsOf v 1 5)

/-- A write of one word of an entry. A valid entry takes no word but the first, and of that word only the clearing of VALID; writing its other fields as they
stand changes nothing (R294). -/
def writeComm (c w v : Nat) (s : State) : State :=
  let err := setErr nePage Ne.eCfgErr 0 0
  let fs := commFields w
  if commValid s c then
    let changes := w != 0 || fs.any (fun f => bitsOf v f.lo f.len != getF s nePage f c)
    let clearing := w == 0 && v % 2 == 0
    let busy := s.jobs.any (fun j => j.comm == c) || (List.range 32).any (fun q =>
      (getQueue s (96 + q)).flights.any (fun f => dNat f.desc 0x28 2 == c))
    let s := if clearing ∧ busy = false then setF nePage Ne.valid 0 s c else s
    if changes ∨ (clearing = true ∧ busy = true) then err s else s
  else
    let s := fs.foldl (fun s f => setF nePage f (bitsOf v f.lo f.len) s c) s
    if w = 0 ∧ v % 2 = 1 then
      let s := setF nePage Ne.valid 1 (setF nePage Ne.broken 0 s c) c
      { s with cseq := tblPut 0 s.cseq c 0, p2pSeq := tblDrop (4096 * c) (4096 * c + 4096) s.p2pSeq, readys := s.readys.filter (fun e => e.1 != c) }
    else s

def execCommEntryWrite (conn : ConnId) (c : Fin 64) (w : Fin 8) (v : Word32) (s : State) : Host.Outcome State Fault Refusal :=
  Host.Outcome.next (if mayWriteComm s conn c w v.toNat then writeComm c w v.toNat s else s)

/-! ## Lost packets (R186) -/

/-- The transfer or collective of a queue that is under way with packets to or from scratchpads: the engine cycle it began at, and the cores. -/
def engineSends (s : State) (q : Nat) : Option (Nat × List Nat) :=
  if q < 32 ∨ 128 ≤ q then none
  else ((getQueue s q).flights.filter (fun f => f.started)).findSome? (fun f =>
    let cores := if q < 96 then rangeCores (teRanges f.desc)
      else match s.jobs.find? (fun j => j.queue == q && j.index == f.index) with
        | some j => rangeCores (neReads f.desc j.size j.rank ++ neWrites f.desc j.size j.rank)
        | none => []
    if cores.isEmpty then none else some (f.start, cores))

/-- A PUT unanswered for 2^18 local cycles is UC against the sender's Hedge, charged to no site (R431). -/
def lostPut (ident : Nat) (s : State) : State :=
  match s.packets.find? (fun p => p.ident == ident) with
  | none => s
  | some p =>
    let k := getCore s p.src
    if ident ∉ k.puts ∨ k.cyc < p.sent + 2 ^ 18 then s
    else
      let d := draw s
      reportUc (pgSpm p.src) (d.1 % 2 ^ 16) (hedgeOfCore s p.src) p.src none false
        (dropPacket ident (putCore p.src { k with puts := k.puts.filter (· != ident) } d.2))

/-- A transfer some of whose packets an engine still waits for after 2^18 local cycles is UC against its queue's Hedge; the core that the lost packet was for is one
of those it touches (a free value). The descriptor stays in flight. -/
def lostEngine (q : Nat) (s : State) : State :=
  match engineSends s q with
  | none => s
  | some (start, cores) =>
    if s.engCyc < start + 2 ^ 18 then s
    else
      let d := draw s
      let e := draw d.2
      reportUc (pgQue q) (d.1 % 2 ^ 16) (some (queHedge s q)) (cores.getD (e.1 % cores.length) 0) none false e.2

/-- LOST_PACKET. No BLK_ERR bit shows it, and the spec gives its journal record no code: the code is a free value. -/
def execLostPacket (who : LostSender) (s : State) : Host.Outcome State Fault Refusal :=
  Host.Outcome.next (match who with
    | .put ident => lostPut ident s
    | .engine q => lostEngine q s)

end Sys2Proof.Machine
end

