-- ==== Sys2Proof/Machine/Image.lean ====
section
/-!
DEFINITION. Placed images, by R184 to R190 and R224: the checks of LOAD_IMAGE, what it writes into every core, and the restores of
R187 and R421.
-/
namespace Sys2Proof.Machine

/-! ## Parsing (R184, R185) -/

/-- A section entry. -/
structure Section where
  type     : Nat
  optional : Bool
  count    : Nat
  offset   : Nat
  bytes    : Nat
  deriving DecidableEq, Repr

/-- Section entry i of an image's bytes. -/
def sectionOf (img : List Byte) (i : Nat) : Section :=
  let o := 0x80 + 32 * i
  ⟨bNat img o 2, (bNat img (o + 2) 2).testBit 0, bNat img (o + 4) 4, bNat img (o + 8) 8, bNat img (o + 16) 8⟩

/-- The sections NSECT counts, eight at most. -/
def imgSections (img : List Byte) : List Section := (List.range (min 8 (bNat img 0x12 2))).map (sectionOf img)

/-- Record size of a section type the device knows. -/
def recSize : Nat → Option Nat
  | 1 => some 16
  | 2 => some 8
  | 3 => some 16
  | 4 => some 40
  | 5 => some 32
  | _ => none

/-- Records of a section type, each as its bytes. -/
def imgRecords (img : List Byte) (type : Nat) : List (List Byte) :=
  match (imgSections img).find? (fun x => x.type == type), recSize type with
  | some x, some sz => (List.range x.count).map (fun i => (img.drop (x.offset + i * sz)).take sz)
  | _, _ => []

/-- Records of a type that name a core index. -/
def coreRecords (img : List Byte) (type core : Nat) : List (List Byte) :=
  (imgRecords img type).filter (fun r => bNat r 0 2 == core)

/-- Word i of a tile program record. -/
def progWord (img : List Byte) (r : List Byte) (i : Nat) : Nat := bNat img (bNat r 8 8 + 8 * i) 8

/-- A region of the manifest. -/
def regionOf (r : List Byte) : Region :=
  ⟨bNat r 0 2, (bNat r 2 2).testBit 0, bNat r 4 4, bNat r 8 4, bNat r 16 8, bNat r 24 8⟩

def imgManifest (img : List Byte) : List Region := (imgRecords img 5).map regionOf

/-! ## The checks of R190 -/

/-- The tables of all cores of an image, for R179: (core index, o, c, entry). -/
def imgChannels (img : List Byte) : List (Nat × Nat × Nat × Nat) :=
  (imgRecords img 2).map (fun r => (bNat r 0 2, bNat r 2 1 / 8, bNat r 2 1 % 8, bNat r 4 4))

/-- The core index across output o of a core index in a Hedge 8w cores wide and 16h high, and the port it enters there. -/
def idxLink (w h i o : Nat) : Option (Nat × Nat) :=
  let r := i / (8 * w)
  let c := i % (8 * w)
  match o with
  | 0 => if r = 0 then none else some (i - 8 * w, 1)
  | 1 => if r + 1 = 16 * h then none else some (i + 8 * w, 0)
  | 2 => if c + 1 = 8 * w then none else some (i + 1, 3)
  | 3 => if c = 0 then none else some (i - 1, 2)
  | _ => none

def entValid (e : Nat) : Bool := e.testBit 0
def entPort (e : Nat) : Nat := bitsOf e 1 3
def entCh (e : Nat) : Nat := bitsOf e 4 3
def entSlots (e : Nat) : Nat := bitsOf e 8 8

/-- The rules of R179. -/
def channelsOk (w h : Nat) (l : List (Nat × Nat × Nat × Nat)) : Bool :=
  let v := l.filter (fun t => entValid t.2.2.2)
  let links := v.all (fun t =>
    t.2.1 == 4 || (match idxLink w h t.1 t.2.1 with
      | none => false
      | some (d, p) => (v.filter (fun u => u.1 == d && entPort u.2.2.2 == p && entCh u.2.2.2 == t.2.2.1)).length == 1))
  let inputs := v.all (fun t =>
    let p := entPort t.2.2.2
    p == 4 || (match idxLink w h t.1 p with
      | none => false
      | some (d, o) => (v.filter (fun u => u.1 == d && u.2.1 == o && u.2.2.1 == entCh t.2.2.2)).length == 1))
  let ports := l.all (fun t => decide (t.2.1 < 5 ∧ entPort t.2.2.2 < 5))
  let once := l.zipIdx.all (fun t => (l.drop (t.2 + 1)).all (fun u => !(u.1 == t.1.1 && u.2.1 == t.1.2.1 && u.2.2.1 == t.1.2.2.1)))
  let fanout := v.zipIdx.all (fun t => (v.drop (t.2 + 1)).all (fun u =>
    !(u.1 == t.1.1 && entPort u.2.2.2 == entPort t.1.2.2.2 && entCh u.2.2.2 == entCh t.1.2.2.2)))
  let slots := v.zipIdx.all (fun t => (v.drop (t.2 + 1)).all (fun u =>
    !(u.1 == t.1.1 && u.2.1 == t.1.2.1) || entSlots u.2.2.2 &&& entSlots t.1.2.2.2 == 0))
  let pool := v.all (fun t =>
    ((v.filter (fun u => u.1 == t.1 && u.2.1 == t.2.1)).foldl (fun m u => m ||| entSlots u.2.2.2) 0) != 0xFF)
  links && inputs && ports && once && fanout && slots && pool

/-- A DESCRIPTORS record: a kind and index of R185, and zero reserved bits. -/
def descRecOk (r : List Byte) : Bool :=
  let w := fun i => bNat r (8 + 4 * i) 4
  decide (bNat r 2 1 < 2 ∧ bNat r 3 1 < 16 ∧ bNat r 4 4 = 0) &&
    (if bNat r 2 1 = 0 then
      decide (w 0 / 2 ^ 30 = 0 ∧ w 1 / 2 ^ 22 = 0 ∧ w 2 / 2 ^ 22 = 0 ∧ w 3 / 2 ^ 22 = 0 ∧ bNat r 24 16 = 0)
    else decide (w 0 / 2 ^ 31 = 0 ∧ w 2 / 2 ^ 16 = 0 ∧ w 3 / 2 ^ 23 = 0 ∧ w 4 / 2 ^ 23 = 0 ∧ w 5 / 2 ^ 23 = 0))

/-- Two ranges overlap. -/
def overlap (a n b m : Nat) : Bool := decide (a < b + m ∧ b < a + n)

/-- Backing copies of a region: a READ_ONLY region's copy B is ignored (R187). -/
def regionCopies (g : Region) : List (Nat × Nat) := if g.snapshot then [(g.copyA, g.len), (g.copyB, g.len)] else [(g.copyA, g.len)]

/-- The manifest's rules (R189, order 11 of R190). -/
def manifestOk (s : State) (h : Nat) (l : List Region) : Bool :=
  let copies := l.flatMap regionCopies
  l.all (fun g => decide (g.off + g.len ≤ spmSize ∧ g.off % 64 = 0 ∧ g.len % 64 = 0)) &&
    l.zipIdx.all (fun g => (l.drop (g.2 + 1)).all (fun k => k.core != g.1.core || !overlap g.1.off g.1.len k.off k.len)) &&
    copies.all (fun c => decide (c.1 % 64 = 0) && mereOwned s h c.1 c.2) &&
    copies.zipIdx.all (fun c => (copies.drop (c.2 + 1)).all (fun d => !overlap c.1.1 c.1.2 d.1 d.2))

/-- The entry table of a program (order 7 of R190). -/
def entriesOk (img r : List Byte) : Bool :=
  (List.range 64).all (fun i =>
    let w := progWord img r i
    decide (w < 2 ^ 17 ∧ (w = 0 ∨ (0x200 ≤ w ∧ w % 8 = 0 ∧ w < tpmEnd))))

/-- Manifest bytes of a core, at most 96 KiB (R224). -/
def coreManifest (l : List Region) (c : Nat) : Nat := (l.filter (fun g => g.core == c)).foldl (fun n g => n + g.len) 0

/-- The image cause of the first check of R190 that fails, or of R224; 0 where all pass. -/
def imageCause (s : State) (h : Nat) (k : Hedge) (a size : Nat) (img : List Byte) : Nat :=
  let secs := imgSections img
  let cores := 128 * k.width * k.height
  let inSize := secs.all (fun x => decide (x.offset + x.bytes ≤ size))
  let idx := [1, 2, 3, 4, 5].all (fun t => (imgRecords img t).all (fun r => decide (bNat r 0 2 < cores)))
  let progs := (List.range cores).all (fun c =>
    match coreRecords img 1 c with
    | [r] => decide (64 ≤ bNat r 4 4 ∧ bNat r 4 4 ≤ 16384 ∧ bNat r 8 8 + 8 * bNat r 4 4 ≤ size) && entriesOk img r
    | _ => false)
  let ponds := imgRecords img 3
  let man := imgManifest img
  if size < 384 ∨ mereOwned s h a size = false ∨ secs.any (fun x => x.bytes != 0 && !mereOwned s h (a + x.offset) x.bytes) = true then 0x01
  else if bNat img 0 4 ≠ 0x5A454C50 ∨ bNat img 4 2 ≠ 1 ∨ bNat img 0x14 4 ≠ 0 ∨ bNat img 0x18 40 ≠ 0 ∨ bNat img 0x70 16 ≠ 0 ∨
    (List.range secs.length).any (fun i => bNat img (0x80 + 32 * i + 0x18) 8 != 0) = true then 0x02
  else if sha384 ((img.take size).drop 0x180) ≠ (img.drop 0x40).take 48 then 0x03
  else if bNat img 0x10 1 ≠ k.width ∨ bNat img 0x11 1 ≠ k.height then 0x04
  else if bNat img 0x12 2 = 0 ∨ 8 < bNat img 0x12 2 ∨ inSize = false ∨
    secs.any (fun x => match recSize x.type with
      | some sz => x.count * sz != x.bytes
      | none => !x.optional) = true ∨
    (secs.map (fun x => x.type)).eraseDups.length ≠ secs.length then 0x05
  else if idx = false then 0x06
  else if progs = false then 0x07
  else if channelsOk k.width k.height (imgChannels img) = false then 0x08
  else if ponds.any (fun r => !windowOk (64 * bNat r 4 2) (64 * bNat r 8 4)) = true ∨
    ponds.zipIdx.any (fun r => (ponds.drop (r.2 + 1)).any (fun q => bNat q 0 2 == bNat r.1 0 2 && bNat q 2 1 % 16 == bNat r.1 2 1 % 16)) = true then 0x09
  else if (imgRecords img 4).any (fun r => !descRecOk r) = true then 0x0A
  else if manifestOk s h man = false then 0x0B
  else if (List.range cores).any (fun c => decide (96 * 1024 < coreManifest man c)) = true then 0x0C
  else 0

/-! ## Loading a core (R188) -/

/-- Tile-program memory of a core from its record; words that are zero are not listed. -/
def progTable (img r : List Byte) : Tbl Word64 :=
  (List.range (bNat r 4 4)).filterMap (fun i =>
    let w := progWord img r i
    if w = 0 then none else some (i, BitVec.ofNat 64 w))

/-- Writes a channel-table entry (R195). -/
def setChan (s : State) (c o ch e : Nat) : State :=
  let p := rtrPage (routingSite s c)
  let i := 8 * o + ch
  let s := setF p Rtr.chanValid (bitsOf e 0 1) s i
  let s := setF p Rtr.chanInPort (entPort e) s i
  let s := setF p Rtr.chanInCh (entCh e) s i
  setF p Rtr.chanSlots (entSlots e) s i

/-- The tile program, channel table and descriptors of one core, from the image (R188, R421). -/
def loadParts (img : List Byte) (idx c : Nat) (s : State) : State :=
  let k := getCore s c
  let s := match coreRecords img 1 idx with
    | r :: _ => putCore c { k with tpm := progTable img r, tpmBad := [] } s
    | [] => s
  let s := resetRange (rtrPage (routingSite s c) + 0x100) (rtrPage (routingSite s c) + 0x1A0) s
  let s := (coreRecords img 2 idx).foldl (fun s r => setChan s c (bNat r 2 1 / 8) (bNat r 2 1 % 8) (bNat r 4 4)) s
  let s := resetRange (arrPage c + 0x100) (arrPage c + 0x200) s
  let s := resetRange (vecPage c + 0x100) (vecPage c + 0x300) s
  (coreRecords img 4 idx).foldl (fun s r =>
    let w := fun i => bNat r (8 + 4 * i) 4
    if bNat r 2 1 = 0 then loadArrDesc c (bNat r 3 1) (w 0 + w 1 * 2 ^ 32) (w 2 + w 3 * 2 ^ 32) s
    else loadGen c (bNat r 3 1) ((List.range 8).map w) s) s

/-- Ponds of a core: cleared, and those POND_INIT names opened for the Hedge itself (R185). -/
def loadPonds (img : List Byte) (h idx c : Nat) (s : State) : State :=
  let s := resetRange (spmPage c + 0x100) (spmPage c + 0x200) s
  let s := putCore c { getCore s c with ponds := [] } s
  (coreRecords img 3 idx).foldl (fun s r =>
    let p := bNat r 2 1 % 16
    let ev := bNat r 6 2
    let s := setF (spmPage c) Spm.thresh (bNat r 12 4) s p
    let s := setF (spmPage c) Spm.evtEn (bitsOf ev 15 1) s p
    let s := setF (spmPage c) Spm.evtCtr (bitsOf ev 0 12) s p
    openPond c p (64 * bNat r 4 2) (64 * bNat r 8 4) h (bNat r 3 1) s) s

/-! ## Moving data (R187, R226 to R229) -/

/-- How far a transfer came: granules, bytes and numeric flags; the ending where a read or an index stopped it; whether it pauses short of its end. -/
structure Moved where
  units : Nat := 0
  bytes : Nat := 0
  flags : Nat := 0
  stop  : Option Ending := none
  held  : Bool := false
  deriving DecidableEq, Repr

/-- The granules that one command moves: those before `skip` were moved earlier, and it pauses before granule `limit` (R226, R233). -/
structure Leg where
  skip  : Nat := 0
  limit : Option Nat := none
  deriving DecidableEq, Repr

/-- Runs a transfer's parts in order up to the first that stops or pauses; each is told how many granules come before it. -/
def runRows {α : Type} (f : α → Nat → State → Moved × State) : List α → Moved → State → Moved × State
  | [], m, s => (m, s)
  | x :: t, m, s =>
    let r := f x m.units s
    let m' : Moved := ⟨m.units + r.1.units, m.bytes + r.1.bytes, m.flags ||| r.1.flags, r.1.stop, r.1.held⟩
    if m'.stop.isSome || m'.held then (m', r.2) else runRows f t m' r.2

/-- One granule of a transfer, by its place and its bytes: moved before, held, or moved now. -/
def oneUnit (g : Leg) (u n : Nat) (act : State → Moved × State) (s : State) : Moved × State :=
  if u < g.skip then ({ units := 1, bytes := n }, s)
  else if (g.limit.map (fun z => decide (z ≤ u))).getD false then ({ held := true }, s)
  else act s

/-- A granule written. -/
def wrote (a : Nat) (bs : List Byte) (s : State) : Moved × State := ({ units := 1, bytes := bs.length }, engWrite a bs s)

/-- [a, a + n) cut where it crosses multiples of 64, as offsets and lengths. -/
def granules (a n : Nat) : List (Nat × Nat) :=
  (blocksOf a n).map (fun b => let lo := max a b; (lo - a, min (b + 64) (a + n) - lo))

/-- Packets of the bytes a row has moved in this command. -/
def rowTraffic (q src dst before now' : Nat) (s : State) : State :=
  engTraffic q (some (src + before)) (dst + before) (now' - before) true (engTraffic q (some (dst + before)) (src + before) (now' - before) false s)

/-- Bytes of the granules of a list that come before a number of them. -/
def skipBytes (l : List (Nat × Nat)) (n : Nat) : Nat := (l.take n).foldl (fun b g => b + g.2) 0

/-- Moves a row of bytes for a queue by 64-byte granules; the first failing address ends it. Reads may meet damage; writes of whole granules clear it. -/
def moveRow (q : Nat) (g : Leg) (src dst n before : Nat) (s : State) : Moved × State :=
  let parts := granules src n
  let r := runRows (fun (p : Nat × Nat) u s => oneUnit g (before + u) p.2 (fun s =>
    let x := engRead (queHedge s q) (src + p.1) p.2 s
    match x.1 with
    | some a => ({ stop := some (dataUc a) }, x.2.2)
    | none => wrote (dst + p.1) x.2.1 x.2.2) s) parts {} s
  (r.1, rowTraffic q src dst (skipBytes parts (g.skip - before)) r.1.bytes r.2)

/-- Applies an operation that may fail to each of a list, up to the first failure. -/
def eachOk {α : Type} (f : α → State → Option Ending × State) : List α → State → Option Ending × State
  | [], s => (none, s)
  | x :: t, s =>
    let r := f x s
    match r.1 with
    | some a => (some a, r.2)
    | none => eachOk f t r.2

/-! ## Manifest copies (R187) -/

/-- The scratchpad address of a region. -/
def regionAddr (k : Hedge) (g : Region) : Nat := spmBase (hedgeCoreAt k g.core) + g.off

/-- One copy between a region and its backing copy, which must lie in segments of the Hedge number still (R202, R203). -/
def copyRegion (h backing src dst n : Nat) (s : State) : Option Ending × State :=
  if n ≠ 0 ∧ mereOwned s h backing n = false then (some (denied backing), s)
  else
    let m := moveRow h {} src dst n 0 s
    (m.1.stop, engineEv h 0x05 ((m.1.bytes + 63) / 64) m.2)

/-- Fills regions from copy A, or from the copy COMMIT names (R187). -/
def restoreRegions (h : Nat) (k : Hedge) (fromCommit : Bool) (s : State) : Option Ending × State :=
  eachOk (fun (g : Region) s =>
    let src := if fromCommit && g.snapshot && k.commitB then g.copyB else g.copyA
    copyRegion h src src (regionAddr k g) g.len s) k.manifest s

/-- Copies every SNAPSHOT region into the copy COMMIT does not name (R187). -/
def snapshotRegions (h : Nat) (k : Hedge) (s : State) : Option Ending × State :=
  eachOk (fun (g : Region) s =>
    let dst := if k.commitB then g.copyA else g.copyB
    copyRegion h dst (regionAddr k g) dst g.len s) (k.manifest.filter (fun g => g.snapshot)) s

/-! ## LOAD_IMAGE -/

/-- The image as the FE reads it: its bytes, or how the reading ends. -/
def readImage (h a : Nat) (s : State) : Option Ending × Nat × List Byte × State :=
  if mereOwned s h a 384 = false then (some (denied a), 0, [], s)
  else
    let hd := engRead h a 384 s
    match hd.1 with
    | some bad => (some (dataUc bad), 0, [], hd.2.2)
    | none =>
      let size := bNat hd.2.1 8 8
      if size < 384 ∨ mereOwned s h a size = false then (none, size, hd.2.1, hd.2.2)
      else
        let r := engRead h a size hd.2.2
        (r.1.map dataUc, size, r.2.1, r.2.2)

/-- Every cluster of a Hedge that can run is awake: writes into its cores' memories need not wait (R146). -/
def hedgeAwake (s : State) (k : Hedge) : Bool := !anyAsleep s (hedgeCores k)

/-- LOAD_IMAGE (R188): every check before any core is written; then every core from the image, the regions from copy A, COMMIT to A
and the Hedge READY. A header outside the Hedge's segments is order 1 of R190. A parity error on the way in ends it with DATA_UC at an address the spec does
not name (R239). -/
def loadImage (h : Nat) (parityBad : Bool) (s : State) : State :=
  match startedOp s h 2 with
  | none => s
  | some f =>
    let k := getHedge s h
    let a := dNat f.desc 0x10 8
    if k.state ≠ .bound ∧ k.state ≠ .ready then complete h f { status := stHedgeState, detail := hCode k.state } s
    else if hedgeAwake s k = false then wakeAll (liveClusters s k) s
    else if mereOwned s h a 384 = false then complete h f { status := stImageRefused, info := 0x01 } s
    else if parityBad then
      let p := engineParity h [] s
      complete h f p.1 p.2
    else
      let r := readImage h a s
      match r.1 with
      | some e => complete h f e r.2.2.2
      | none =>
        let img := r.2.2.1
        let s := yieldTests (hedgeCores k) r.2.2.2
        let cause := imageCause s h k a r.2.1 img
        if cause ≠ 0 then complete h f { status := stImageRefused, info := cause } s
        else
          let cores := hedgeCores k
          let s := cores.zipIdx.foldl (fun s e => loadPonds img h e.2 e.1 (loadParts img e.2 e.1 s)) s
          let k := { getHedge s h with image := a, manifest := imgManifest img, commitB := false, ponded := false, reload := [] }
          let m := restoreRegions h k false s
          match m.1 with
          | some e => complete h f e (putHedge h { k with state := .bound } m.2)
          | none => complete h f {} (putHedge h { k with state := .ready } m.2)

def execLoadImage (h : Run HedgeId) (s : State) : Host.Outcome State Fault Refusal := Host.Outcome.next (loadImage h.unit h.bad s)

end Sys2Proof.Machine
end

