-- ==== Sys2Proof/Machine/MapOps.lean ====
section
/-!
DEFINITION. Changes of the logical map, by R14, R24, R408, R417 to R426 and R538: holes, disabled plots, the map registers, and what a
site shift moves.
-/
namespace Sys2Proof.Machine

/-! ## The map registers (R424 to R426) -/

/-- The nibble of group g in MAP_ROW r. -/
def mapNibble (s : State) (row g : Nat) : Nat :=
  if row / 16 * 8 + g ∈ s.disabled then 0xA
  else match groupHoles s row g with
    | [] => 9
    | [p] => siteCol p % 9
    | _ => 0xB

/-- A row has no broken segment. -/
def rowWhole (s : State) (row : Nat) : Bool := (List.range 71).all (fun p => !brokenSeg s row p)

/-- The detour row of a row: the nearest whole row of its field row, the lower number where two tie (R408). -/
def detourOf (s : State) (row : Nat) : Option Nat :=
  let rows := ((List.range 16).map (fun i => row / 16 * 16 + i)).filter (rowWhole s)
  let far := fun r => max r row - min r row
  rows.foldl (fun b r => match b with
    | none => some r
    | some x => if far r < far x then some r else some x) none

/-- The detour table: one entry for each row that has a broken segment and a detour row. -/
def detourTable (s : State) : Tbl Nat :=
  (List.range 64).filterMap (fun r => if rowWhole s r then none else (detourOf s r).map (fun d => (r, d)))

/-- Plots offered. -/
def plotsOffered (s : State) : List Nat := (List.range 32).filter (fun p => p ∉ s.disabled)

/-- The mask of the plots offered. -/
def plotMask (s : State) : Nat := (plotsOffered s).foldl (fun m p => m + 2 ^ p) 0

/-- MAP_ROW, BOOT_PLOTS and BOOT_CORES show the map in force, and the routers hold its detour table. -/
def writeMap (s : State) : State :=
  let s := (List.range 64).foldl (fun s r =>
    setF bupPage Bup.mapRow ((List.range 8).foldl (fun n g => n + mapNibble s r g * 16 ^ g) 0) s r) s
  let n := (plotsOffered s).length
  let s := setF bupPage Bup.mask (plotMask s) s
  let s := setF bupPage Bup.cores (128 * n) s
  let s := setF bupPage Bup.plots n s
  { s with detour := detourTable s, mapped := true }

/-- A list in ascending order with one more member. -/
def insertAsc (x : Nat) : List Nat → List Nat
  | [] => [x]
  | y :: t => if x = y then y :: t else if x < y then x :: y :: t else y :: insertAsc x t

/-- Disables a plot until the next device reset (R24, R423): its cores are OFF and none of its numbers is offered. -/
def disablePlot (p : Nat) (s : State) : State :=
  let s := (plotCores p).foldl (fun s c => putCore c {} s) s
  let keep := fun c => plotOfCore c != p
  let s := { s with disabled := insertAsc p s.disabled, lost := s.lost.filter keep, pinned := s.pinned.filter (fun e => keep e.1),
                    doomed := s.doomed.filter (fun x => plotOfSite x != p) }
  broadcastPlots (writeMap s)

/-! ## Retirements (R414 to R423) -/

/-- The plot whose work a site's loss touches: that of the core it holds; for an unused spare that carries the path to a hole east
of it, the plot of the next group (R423). -/
def touchedPlot (s : State) (p : Nat) : Option Nat :=
  match coreOfSite s p with
  | some _ => some (plotOfSite p)
  | none =>
    if siteCol p % 9 = 8 ∧ siteCol p < 71 ∧ siteAt (siteRow p) (siteCol p + 1) ∈ s.holes ∧ p ∉ s.holes then
      some (plotOfSite (siteAt (siteRow p) (siteCol p + 1)))
    else none

/-- A retirement of one site finds no spare (R423): its group has a hole, or it leaves two holes side by side across a group border
(R17). -/
def shortSite (s : State) (p : Nat) : Bool :=
  let row := siteRow p
  let col := siteCol p
  (coreOfSite s p).isSome && !(groupHoles s row (col / 9)).isEmpty ||
    decide (col % 9 = 0 ∧ 0 < col ∧ siteAt row (col - 1) ∈ s.holes) ||
    decide (col % 9 = 8 ∧ col < 71 ∧ siteAt row (col + 1) ∈ s.holes)

/-- A retirement of several sites finds no spare, also where two of them share a group. -/
def shortSites (s : State) (l : List Nat) : Bool :=
  l.any (shortSite s) || l.any (fun p => l.any (fun q => p != q && siteRow p == siteRow q && siteCol p / 9 == siteCol q / 9))

/-- Marks sites retired at runtime: in SITE_STAT and in the site entries. -/
def markRetired (l : List Nat) (s : State) : State :=
  l.foldl (fun s p => setF (stePage (p / 512)) Ste.retired 1 { s with retired := insertAsc p s.retired } (p % 512)) s

/-- Sites become holes. -/
def addHoles (l : List Nat) (s : State) : State := { s with holes := l.foldl (fun h p => insertAsc p h) s.holes }

/-- Routers near the sites of a map change that change their map hold their inputs for 1 µs, the rule's limit (R180). -/
def holdRouters (old : State) (sites : List Nat) (s : State) : State :=
  let near := (sites.flatMap (fun p => [siteRow p - 1, siteRow p, min 63 (siteRow p + 1)].flatMap (fun r =>
    (List.range 14).map (fun i => siteAt r (min 71 (9 * (siteCol p / 9) + i - 2)))))).eraseDups
  let moved := near.filter (fun p => decide (rtrCfg old p ≠ rtrCfg s p ∨ columnsAt old p ≠ columnsAt s p))
  { s with mapHold := moved.foldl (fun t p => tblPut 0 t p (s.now + usEdges)) s.mapHold }

/-- Sites become holes with no shift: the cores they held are lost, and where a group then has two holes or more the other cores
keep their sites (R423, R538). -/
def holeAtOnce (l : List Nat) (s : State) : State :=
  let gone := l.filterMap (coreOfSite s)
  let s := gone.foldl (fun s c => scrubCore c s) s
  let old := s
  let groups := (l.map (fun p => (siteRow p, siteCol p / 9))).eraseDups
  let pins := groups.flatMap (fun g =>
    let holes := groupHoles s g.1 g.2 ++ l.filter (fun p => siteRow p == g.1 && siteCol p / 9 == g.2)
    if holes.length < 2 then []
    else (List.range 8).filterMap (fun i =>
      let c := coreAt g.1 (8 * g.2 + i)
      match siteOf s c with
      | some p => if p ∈ l then none else some (c, p)
      | none => none))
  let s := pins.foldl (fun s e => { s with pinned := tblInsert e.1 e.2 s.pinned }) s
  let s := gone.foldl (fun s c => clearBank c true (putCore c {} { s with lost := insertAsc c s.lost })) s
  let s := addF bupPage Bup.retireCnt 1 (markRetired l (addHoles l s))
  holdRouters old l (writeMap s)

/-- The cores a shift moves: from each retired site's position to position 7 of its group, in ascending order (R418). -/
def shiftMovers (s : State) (p : Nat) : List Nat :=
  match coreOfSite s p with
  | none => []
  | some c => (List.range (8 - coreCol c % 8)).map (fun i => c + i)

/-- The clusters of the sites a shift writes into. -/
def shiftReceivers (l : List Nat) : List Nat :=
  (l.flatMap (fun p => (List.range (8 - siteCol p % 9)).map (fun i => clusterOfSite (p + 1 + i)))).eraseDups

/-- What a shift leaves behind at each site (R418 names what it sends): registers, tiles, statistics and loop stack. -/
def stayBehind (from' into : Core) : Core :=
  { into with sregs := from'.sregs, vregs := from'.vregs, vl := from'.vl, ready := from'.ready, loops := from'.loops,
              slots := from'.slots, slotBad := from'.slotBad, stats := from'.stats, regBad := from'.regBad }

/-- Copies a router's channel table to another site's router. -/
def moveChanTable (src dst : Nat) (s : State) : State :=
  (List.range 40).foldl (fun s i =>
    [Rtr.chanValid, Rtr.chanInPort, Rtr.chanInCh, Rtr.chanSlots].foldl (fun s f =>
      setF (rtrPage dst) f (getF s (rtrPage src) f i) s i) s) s

/-- The moves of one retired site, all at once: each core's items go one site east. In an immediate retirement the core that leaves
the retired site arrives at one that reads zero (R418). -/
def moveEast (planned : Bool) (p : Nat) (s : State) : State :=
  let movers := shiftMovers s p
  let old := s
  let s := match movers with
    | c :: _ => if planned then s else { scrubCore c s with flits := s.flits, rest := s.rest }
    | [] => s
  let s := movers.reverse.foldl (fun s c => moveChanTable (routingSite old c) (routingSite old c + 1) s) s
  let s := resetRange (rtrPage p + 0x100) (rtrPage p + 0x1A0) s
  movers.foldl (fun s c =>
    let from' := if coreCol c % 8 = 7 then scrubbedCore else getCore old (c + 1)
    putCore c { stayBehind from' (getCore s c) with mode := (getCore old c).mode } s) s

/-- F0 of the banks of cores that have moved goes on from its value (R490). -/
def carryF0 (old : State) (cores : List Nat) (s : State) : State :=
  cores.foldl (fun s c =>
    let k := getBank s c
    let was : Int := ((tblGet {} old.clus (clusterOfCore old c)).edges : Int)
    let is' : Int := ((tblGet {} s.clus (clusterOfCore s c)).edges : Int)
    putBank c { k with off := k.off + was - is' } s) s

/-- The commit of R419: the items have moved, the sites are holes, the map and the routers take it together. -/
def commitShift (sh : Shift) (s : State) : State :=
  let old := s
  let movers := sh.sites.flatMap (shiftMovers s)
  let s := sh.sites.foldl (fun s p => moveEast sh.planned p s) s
  let s := addF bupPage Bup.retireCnt 1 (markRetired sh.sites (addHoles sh.sites s))
  holdRouters old sh.sites (carryF0 old movers
    (writeMap { s with planned := s.planned.filter (fun e => e.1 ∉ sh.sites), failed := s.failed.filter (fun e => e.1 ∉ sh.sites) }))

/-- SPARE_STAT follows the shifts under way and the planned retirements waiting. -/
def showShift (s : State) : State :=
  setF bupPage Bup.pendingCnt (min 255 s.planned.length) (setF bupPage Bup.shifting (if s.shifts.isEmpty then 0 else 1) s)

/-- Rolls a Hedge's shift back: the map stays, and its sites wait for another plan (R419). -/
def rollback (h : Nat) (s : State) : State :=
  match tblFind h s.shifts with
  | none => s
  | some sh =>
    let k := getHedge s h
    let s := putHedge h { k with state := sh.resume } { s with shifts := tblErase h s.shifts }
    showShift (setErr bupPage Bup.eRollback 0 0 (setF bupPage Bup.rollbackBit 1 s))

/-- A KIND 4 EVENT for a planned retirement that finds no spare (R423) goes out for the site's entry. -/
def noSpareNotice (p : Nat) (s : State) : State := { s with notices := s.notices ++ [.noSpare p] }

/-- A site leaves a plot that no Hedge holds, or holds no core: the map changes at once, what its core held is lost (R337), and a plot without a spare is
disabled. -/
def spareUnbound (p : Nat) (s : State) : State :=
  match touchedPlot s p with
  | none => writeMap (addF bupPage Bup.retireCnt 1 (markRetired [p] (addHoles [p] s)))
  | some pl =>
    if shortSite s p then disablePlot pl (holeAtOnce [p] s)
    else commitShift { sites := [p], planned := false, resume := .unbound } s

/-- A site fails and is retired at once (R414, R420, R423): a site that no bound Hedge works with becomes a hole; otherwise it waits
for its Hedge's shift, a shift in an affected group rolls back, and a RUNNING Hedge freezes. -/
def failSite (cause p : Nat) (s : State) : State :=
  if p ∈ s.holes ∨ s.failed.any (fun e => e.1 == p) = true then s
  else
    match touchedPlot s p with
    | none => spareUnbound p s
    | some pl =>
      match hedgeOfPlot s pl with
      | none => spareUnbound p s
      | some h =>
        let s := { s with failed := s.failed ++ [(p, cause)] }
        let s := match tblFind h s.shifts with
          | some sh =>
            if sh.sites.any (fun q => siteRow q == siteRow p && siteCol q / 9 == siteCol p / 9) then rollback h s else s
          | none => s
        if (getHedge s h).state = .running then { s with ucs := s.ucs ++ [⟨h, (coreOfSite s p).getD 0, false⟩] } else s

end Sys2Proof.Machine
end

