-- ==== Sys2Proof/Machine/Hedges.lean ====
section
/-!
DEFINITION. Hedges and their owners, by R200 to R227, R156 to R158 and R432: binding, the life of a step, freeze and replay, kills,
scrubs and retention, and the Fabric Engine's other descriptors.
-/
namespace Sys2Proof.Machine

/-! ## Ending a step (R218, R221) -/

/-- The cores in service of a Hedge. -/
def stepCores (s : State) (k : Hedge) : List Nat := (hedgeCores k).filter (fun c => (siteOf s c).isSome)

/-- NFLAGS: the numeric flags of every core. -/
def stepFlags (s : State) (cores : List Nat) : Nat :=
  cores.foldl (fun n c => n ||| getF s (arrPage c) Arr.flags ||| getF s (vecPage c) Vec.flags) 0

/-- A core whose step has ended: its operations are abandoned and it is IDLE (R104). -/
def coreEnd (k : Core) : Core :=
  match k.mode with
  | .off => k
  | .test => k
  | _ => { abandon k with mode := .idle }

/-- The sites of a list of failures that lie in plots of a Hedge. -/
def failedIn (s : State) (k : Hedge) : List (Nat × Nat) :=
  s.failed.filter (fun e => match touchedPlot s e.1 with
    | some p => decide (p ∈ hedgePlots k)
    | none => false)

/-- The planned retirements of a Hedge's plots. -/
def plannedIn (s : State) (k : Hedge) : List (Nat × Nat) :=
  s.planned.filter (fun e => decide (plotOfSite e.1 ∈ hedgePlots k))

/-- Ends the RUN_STEP of a Hedge: its cores go to IDLE and the Hedge to READY; every ending but OK flushes the channels and leaves
COMMIT (R218). A planned retirement then holds the next descriptor (R422). -/
def endStep (h : Nat) (e : Ending) (s : State) : State :=
  let k := getHedge s h
  match k.run with
  | none => s
  | some r =>
    let cores := stepCores s k
    let nf := stepFlags s cores
    let s := if e.status = stOk then s else flushChannels cores s
    let s := markIdle cores (dropTags cores (onCores cores coreEnd s))
    let s := (hedgeClusters k).foldl (fun s cl => touch cl s) { s with ucs := s.ucs.filter (fun u => u.hedge != h) }
    let s := putHedge h { getHedge s h with state := .ready, run := none, rewrite := [], shiftHold := !(plannedIn s k).isEmpty } s
    advanceJobs (match startedOp s h 3 with
    | some f => complete h f { e with nflags := nf, attempts := r.attempts } s
    | none => s)

/-! ## Queue resets (R232, R233) -/

/-- Aborts every descriptor of a queue that has not completed, and stops the queue. -/
def abortFlights (q : Nat) (s : State) : State :=
  let s := (s.jobs.filter (fun j => j.queue == q)).foldl (fun s j => endJob j { status := stAborted } s) s
  let s := (getQueue s q).flights.foldl (fun s f => complete q f { status := stAborted, nflags := f.nflags } s) s
  putQueue q { getQueue s q with stopped := true, resetting := false } s

/-- A queue reset that waited for a frozen Hedge's shift and restore ends its step with ABORTED (R232, R233). -/
def settleReset (h : Nat) (s : State) : State :=
  if (getQueue s h).resetting ∧ (tblFind h s.shifts).isNone then abortFlights h (endStep h { status := stAborted } s) else s

/-- RESET: a write of Q_CTL.RESET by the owner. On a FROZEN Hedge the Fabric Engine queue waits in RESETTING for the shift and the restore. -/
def resetQueue (q : Nat) (s : State) : State :=
  if q < 32 then
    let k := getHedge s q
    let restored := (k.run.map (fun r => r.armed)).getD false && (failedIn s k).isEmpty && (tblFind q s.shifts).isNone
    if k.state = .frozen ∧ k.spareExh = false ∧ restored = false then putQueue q { getQueue s q with resetting := true } s
    else abortFlights q (endStep q { status := stAborted } s)
  else abortFlights q s

def execReset (conn : ConnId) (q : QueueId) (s : State) : Host.Outcome State Fault Refusal :=
  Host.Outcome.next (if ownsHedge s conn (queHedge s q) then resetQueue q s else s)

/-! ## Binding (R216, R214) -/

/-- INFO of the first condition of R216 that refuses a binding; 0 where none does. -/
def bindCause (s : State) (plot w h : Nat) : Nat :=
  let plots := rectPlots plot w h
  let holder := fun p => (hedgeOfPlot s p).map (fun x => (getHedge s x).state)
  if 8 < plot % 8 + w ∨ 4 < plot / 8 + h then 1
  else if plots.any (fun p => decide (p ∈ s.disabled)) then 2
  else if plots.any (fun p => match holder p with
      | some .scrubbing => false
      | some _ => true
      | none => false) then 3
  else if plots.any (fun p => match holder p with
      | some .scrubbing => true
      | _ => false) then 4
  else 0

/-- The 128 event counters of a Hedge number become zero. -/
def zeroCounters (h : Nat) (s : State) : State := { s with evt := tblDrop (128 * h) (128 * h + 128) s.evt }

/-- The member table of a steering group. -/
def getTab (s : State) (g : Nat) : Option SteerTab := tblFind g s.flash.steer

/-- A Hedge's entry in the power control page (R394). -/
def hb (s : State) (h : Nat) (f : Field) : Nat := getF s pctPage f h
def setHb (h : Nat) (f : Field) (v : Nat) (s : State) : State := setF pctPage f v s h

/-- HB_W1 follows the binding: group, class, and NOGROUP while a STEERED Hedge's group has no table (R377); a number that is not bound shows zero. -/
def showClass (h : Nat) (s : State) : State :=
  let k := getHedge s h
  let s := setHb h Pct.hbSgroup k.sgroup (setHb h Pct.hbSteered (if k.steered then 1 else 0) s)
  let s := setHb h Pct.hbNoGroup (if k.steered ∧ (getTab s k.sgroup).isSome = false then 1 else 0) s
  if k.state = .unbound then setHb h Pct.hbEligible 0 s else s

/-- BIND_HEDGE: every router takes the new table before the binding completes (R174); the number's counters are zero and EVT_ADMIT
is clear (R211). -/
def bindHedge (h : Nat) (s : State) : State :=
  match startedOp s h 1 with
  | none => s
  | some f =>
    let k := getHedge s h
    let d := f.desc
    let plot := dNat d 0x10 1
    let w := dNat d 0x11 1
    let ht := dNat d 0x12 1
    if k.state ≠ .unbound then complete h f { status := stHedgeState, detail := hCode k.state } s
    else
      let cause := bindCause s plot w ht
      if cause ≠ 0 then complete h f { status := stBindRefused, info := cause } s
      else
        let fl := dNat d 0x13 1
        let k := { k with state := .bound, plot := plot, width := w, height := ht, postmortem := fl.testBit 0, steered := fl.testBit 1,
                          sgroup := dNat d 0x14 1, commitB := false, spareExh := false }
        let s := yieldTests (hedgeCores k) (putHedge h k s)
        complete h f {} (showClass h (setF (hdgPage h) Hdg.evtAdmit 0 (zeroCounters h (broadcastPlots s))))

def execBindHedge (h : HedgeId) (s : State) : Host.Outcome State Fault Refusal := Host.Outcome.next (bindHedge h s)

/-! ## Starting a step (R153, R218, R219, R421) -/

/-- Keys of the Pond registers of a core. -/
def pondLo (c : Nat) : Nat := (spmPage c + 0x100) * 32
def pondHi (c : Nat) : Nat := (spmPage c + 0x200) * 32

/-- Entries of a table with keys in [lo, hi). -/
def tblSlice {α : Type} (lo hi : Nat) (t : Tbl α) : Tbl α := t.filter (fun e => decide (lo ≤ e.1 ∧ e.1 < hi))

/-- Records every core's Pond descriptors (R153). -/
def recordPonds (h : Nat) (cores : List Nat) (s : State) : State :=
  let fld := cores.flatMap (fun c => tblSlice (pondLo c) (pondHi c) s.fld)
  let arm := cores.foldl (fun t c => tblPut [] t c (getCore s c).ponds) []
  putHedge h { getHedge s h with pondFld := fld, pondArm := arm, ponded := true } s

/-- Restores one core's Pond descriptors from a record. -/
def restorePond (fld : Tbl Nat) (arm : Tbl (Tbl PondArm)) (c : Nat) (s : State) : State :=
  let keep := tblDrop (pondLo c) (pondHi c) s.fld
  let s := { s with fld := (tblSlice (pondLo c) (pondHi c) fld).foldl (fun t e => tblInsert e.1 e.2 t) keep }
  putCore c { getCore s c with ponds := (tblGet [] arm c).map (fun e => (e.1, { e.2 with closeRd := none })) } s

/-- The lost and rewritten cores of a Hedge take their parts of the image again (R138, R421). Answers how the reading ends where it fails. -/
def reloadCores (h : Nat) (s : State) : Option Ending × State :=
  let k := getHedge s h
  if k.reload.isEmpty ∧ k.rewrite.isEmpty then (none, s)
  else
    let r := readImage h k.image s
    match r.1 with
    | some bad => (some bad, r.2.2.2)
    | none =>
      let img := r.2.2.1
      let s := (hedgeCores k).zipIdx.foldl (fun s e =>
        if e.1 ∈ k.reload then loadParts img e.2 e.1 s
        else if e.1 ∈ k.rewrite then
          match coreRecords img 1 e.2 with
          | rec' :: _ => putCore e.1 { getCore s e.1 with tpm := progTable img rec', tpmBad := [] } s
          | [] => s
        else s) r.2.2.2
      let s := if k.ponded then s
        else (hedgeCores k).zipIdx.foldl (fun s e => if e.1 ∈ k.reload then loadPonds img h e.2 e.1 s else s) s
      (none, s)

/-- The restore of cores lost between steps, before the next step (R421): their image parts, regions and Ponds. -/
def restoreLost (h : Nat) (s : State) : Option Ending × State :=
  let k := getHedge s h
  if k.reload.isEmpty then (none, s)
  else
    let a := reloadCores h s
    match a.1 with
    | some bad => (some bad, a.2)
    | none =>
      let lost := fun (g : Region) => decide (hedgeCoreAt k g.core ∈ k.reload)
      let b := restoreRegions h { k with manifest := k.manifest.filter lost } true a.2
      match b.1 with
      | some bad => (some bad, b.2)
      | none =>
        let s := if k.ponded then k.reload.foldl (fun s c => restorePond k.pondFld k.pondArm c s) b.2 else b.2
        (none, putHedge h { getHedge s h with reload := [] } s)

/-- RUN_STEP (R218 steps 1 to 3): READY only; lost cores and, where asked, the manifest are restored, Ponds recorded, ARR_FLAGS
cleared, clusters woken, and the step armed. A restore waits until the clusters it writes into are awake (R146); a parity error on the engine's path repeats
it once (R239), so that it succeeds. -/
def runStep (h : Nat) (parityBad : Bool) (s : State) : State :=
  match startedOp s h 3 with
  | none => s
  | some f =>
    let k := getHedge s h
    let d := f.desc
    let restores := (dNat d 0x19 1).testBit 1 || !k.reload.isEmpty
    if k.run.isSome then s
    else if k.state ≠ .ready then complete h f { status := stHedgeState, detail := hCode k.state } s
    else if (failedIn s k).isEmpty = false ∨ (tblFind h s.shifts).isSome = true then s
    else if restores && !hedgeAwake s k then wakeAll (liveClusters s k) s
    else
      let a := restoreLost h (if restores && parityBad then setErr (quePage h) Que.eParity 0 0 s else s)
      match a.1 with
      | some e => complete h f e a.2
      | none =>
        let b := if (dNat d 0x19 1).testBit 1 then restoreRegions h k true a.2 else (none, a.2)
        match b.1 with
        | some e => complete h f e b.2
        | none =>
          let cores := stepCores b.2 k
          let s := yieldTests cores (recordPonds h (hedgeCores k) b.2)
          let s := cores.foldl (fun s c => setF (arrPage c) Arr.flags 0 s) s
          let s := wakeAll (liveClusters s k) s
          let r : StepRun := { entry := dNat d 0x18 1, arg := dNat d 0x10 8, once := (dNat d 0x19 1).testBit 0, forecast := dNat d 0x1A 1,
                               attempts := 1, start := s.now, charged := [], reporter := 0, armed := true }
          putHedge h { getHedge s h with run := some r } s

def execRunStep (h : Run HedgeId) (s : State) : Host.Outcome State Fault Refusal := Host.Outcome.next (runStep h.unit h.bad s)

/-! ## Forecasts (R218, R219, R332) -/

/-- The forecast offset in VCODE steps: 2 mV × k over 5 mV. Where that is no whole step, what VTGT shows of it lies between the two nearest. -/
def forecastCodes (k : Nat) (s : State) : Nat × State :=
  if 2 * k % 5 = 0 then (2 * k / 5, s)
  else
    let d := draw s
    (2 * k / 5 + d.1 % 2, d.2)

/-- A Spring takes the class it has received: its phases are enabled. -/
def forecastPhases (cl : Nat) (s : State) : State :=
  let n := min (getF s (sprPage cl) Spr.healthy) (2 + (10 * (getF s (sprPage cl) Spr.forecast + 1) + 7) / 8)
  putClus cl { getClus s cl with phases := n, fcWaits := false, fcAt := s.now } s

/-- From step start a Spring's output is raised by the class it holds, clamped at 0.95 V, for 20 µs. -/
def forecastRaise (s : State) (cl : Nat) : State :=
  if sprState s cl ≠ sprActive then s
  else
    let d := forecastCodes (getF s (sprPage cl) Spr.forecast) s
    let s := putClus cl { getClus d.2 cl with fcAt := s.now, fcOff := d.1 } d.2
    setF (sprPage cl) Spr.vtgt (min 100 (getF s (sprPage cl) Spr.vcode + d.1)) (setF (sprPage cl) Spr.ffActive 1 s)

/-- FORECAST: the Fabric Engine's class for an armed step reaches a Spring of its Hedge. A Spring in RAMP, or on its way there, takes it at PGOOD; a DARK or RETIRED one ignores it. -/
def forecast (cl : Nat) (s : State) : State :=
  match hedgeOfPlot s (plotOfCluster cl) with
  | none => s
  | some h =>
    match (getHedge s h).run with
    | none => s
    | some r =>
      if r.armed = false ∨ clusterGone s cl = true then s
      else
        let s := putHedge h { getHedge s h with run := some { r with told := cl :: r.told.filter (· != cl), toldAt := s.now } } s
        let s := setF (sprPage cl) Spr.forecast r.forecast s
        if sprState s cl = sprActive then forecastPhases cl s else putClus cl { getClus s cl with fcWaits := true } s

def execForecast (cl : ClusterId) (s : State) : Host.Outcome State Fault Refusal := Host.Outcome.next (forecast cl.val s)

/-- The forecast has been at every Spring of a Hedge's running clusters for 1 µs (R218, R219). -/
def forecastDone (s : State) (k : Hedge) (r : StepRun) : Bool :=
  (liveClusters s k).all (fun cl => decide (cl ∈ r.told)) && decide (r.toldAt + usEdges ≤ s.now)

/-- A step may start: it is armed, its Hedge stands, every cluster is clocked and every Spring has its forecast, and no reset of its queue waits. -/
def mayStart (s : State) (h : Nat) (k : Hedge) (r : StepRun) : Bool :=
  (k.state == .ready || k.state == .frozen) && clocked s k && forecastDone s k r && (failedIn s k).isEmpty && (tblFind h s.shifts).isNone &&
    !(getQueue s h).resetting

/-- The first step start of an attempt: the Hedge is RUNNING, its watchdog starts, and its Springs raise their outputs. -/
def beginAttempt (h : Nat) (r : StepRun) (s : State) : State :=
  let k := getHedge s h
  let s := (liveClusters s k).foldl forecastRaise s
  advanceJobs (engineEv h 0x03 1 (putHedge h { k with state := .running, run := some { r with armed := false, start := s.now } } s))

/-- STEP_START (R99): an idle core of a Hedge whose step is armed or running resets and starts issuing at the entry's address, or
faults with cause 0x24; no instruction is there, and BLK_ERRADDR holds that address (DESIGN CHOICE). The first start of an attempt comes once every
cluster of the Hedge is clocked and has its forecast (R218, R219). -/
def stepStart (c : Nat) (s : State) : State :=
  match hedgeOfCore s c with
  | none => s
  | some h =>
    let hk := getHedge s h
    match hk.run with
    | none => s
    | some r =>
      let k := getCore s c
      let may := if r.armed then mayStart s h hk r else hk.state == .running
      if may = false ∨ k.mode ≠ .idle ∨ (siteOf s c).isNone = true then s
      else
        let s := if r.armed then beginAttempt h r s else s
        let word := (tblGet 0 k.tpm r.entry).toNat
        let addr := bitsOf word 0 17
        let k := { stepReset r.entry r.arg k with pc := addr, mode := .run }
        let s := setF (vecPage c) Vec.flags 0 (putCore c k s)
        if goodTarget addr then s else coreFault c addr 0x24 s

def execStepStart (c : CoreId) (s : State) : Host.Outcome State Fault Refusal := Next (stepStart c s)

/-! ## Ends of a step (R120, R187, R220, R221) -/

/-- A UC found by the Fabric Engine's own reads reaches it as any other. -/
def noteUc (h core : Nat) (s : State) : State :=
  if (getHedge s h).state = .running then { s with ucs := s.ucs ++ [⟨h, core, false⟩] } else s

/-- STEP_DONE: every core is DONE and no channel holds a byte; the SNAPSHOT regions are copied, COMMIT inverts, and the step ends OK. An uncorrectable
word among them, or a parity error on what leaves a scratchpad, is a UC of the attempt, and COMMIT stays (R197, R222, R239). -/
def stepDone (h : Nat) (parityBad : Bool) (s : State) : State :=
  let k := getHedge s h
  let cores := stepCores s k
  let snap := k.manifest.filter (fun g => g.snapshot)
  if k.state ≠ .running ∨ cores.any (fun c => (getCore s c).mode != .done) = true ∨ (channelBytesLeft s cores).isSome = true ∨
    s.ucs.any (fun u => u.hedge == h) = true then s
  else if parityBad && !snap.isEmpty then (engineParity h (snap.map (fun g => (regionAddr k g, g.len))) s).2
  else
    let m := snapshotRegions h k s
    match m.1 with
    | some e => if e.status = stDataUc ∧ e.detail < mereBase then noteUc h (e.detail / spmSize) m.2 else endStep h e m.2
    | none => endStep h {} (putHedge h { getHedge m.2 h with commitB := !k.commitB } m.2)

def execStepDone (h : Run HedgeId) (s : State) : Host.Outcome State Fault Refusal := Host.Outcome.next (stepDone h.unit h.bad s)

/-- The core whose inbound endpoint a static buffer feeds, following the channel tables (R178). -/
def flitDest (s : State) : Nat → Nat → Nat → Nat → Nat
  | 0, c, _, _ => c
  | n + 1, c, port, ch =>
    match (List.range 40).find? (fun i => chanValid s c (i / 8) (i % 8) && chanInPort s c (i / 8) (i % 8) == port && chanInCh s c (i / 8) (i % 8) == ch) with
    | none => c
    | some i =>
      if i / 8 = 4 then c
      else match linkOf c (i / 8) with
        | none => c
        | some (d, p) => flitDest s n d p (i % 8)

/-- The receiving core of the bytes left at a core. Where bytes are left in several channels, the first in the order of cores and ports is named (DESIGN
CHOICE). -/
def bytesDest (s : State) (c : Nat) : Nat :=
  match (List.range 40).find? (fun i => !(tblGet [] s.flits (40 * c + i)).isEmpty) with
  | some i => flitDest s 4096 c (i / 8) (i % 8)
  | none => c

/-- PROGRAM_ERROR: a core has faulted, `c` being the one the Fabric Engine saw first; or every core is DONE with bytes left in a channel,
cause 0x2E against the receiving core. -/
def programError (h c : Nat) (s : State) : State :=
  let k := getHedge s h
  let cores := stepCores s k
  if k.state ≠ .running then s
  else if c ∈ cores ∧ (getCore s c).mode = .fault then
    endStep h { status := stProgramError, detail := c + (getCore s c).cause * 2 ^ 16 } s
  else if cores.all (fun x => (getCore s x).mode == .done) then
    match channelBytesLeft s cores with
    | none => s
    | some x =>
      let d := bytesDest s x
      let t := draw s
      endStep h { status := stProgramError, detail := d + 0x2E * 2 ^ 16 } (setErrOwn (seqPage d) Seq.eProgramFault (t.1 % 2 ^ 17) 0x2E t.2)
  else s

def execProgramError (h : HedgeId) (c : CoreId) (s : State) : Host.Outcome State Fault Refusal :=
  Host.Outcome.next (programError h c s)

/-- WATCHDOG: 400,000 reference edges of RUNNING since step start (R220). -/
def watchdog (h : Nat) (s : State) : State :=
  let k := getHedge s h
  match k.run with
  | none => s
  | some r =>
    if k.state ≠ .running ∨ s.now < r.start + 400000 then s
    else
      let late := (stepCores s k).find? (fun c => (getCore s c).mode != .done)
      endStep h { status := stWatchdog, detail := late.getD 0 } s

def execWatchdog (h : HedgeId) (s : State) : Host.Outcome State Fault Refusal := Host.Outcome.next (watchdog h s)

/-! ## Freeze and replay (R222, R223, R432) -/

/-- New damage while a core runs (R431): an uncorrectable error is reported by the check that finds it, a single-bit error stays until a read
corrects it. -/
def detect (src : UcSource) (s : State) : State :=
  let c := src.core.val
  let k := getCore s c
  let site := siteOf s c
  let h := hedgeOfCore s c
  let mark := fun (double : Bool) => if double then 2 else 1
  match src.kind with
  | .spm w => spmMeet c true (spmBase c + 8 * w.val, 2) (damaged (spmBase c + 8 * w.val) 2 s)
  | .tpm w double =>
    let s := putCore c { k with tpmBad := tblPut 0 k.tpmBad w.val (mark double) } s
    if double then reportUc (pgSeq c) Seq.eTpmUc h c site true (setErr (seqPage c) Seq.eTpmUc (8 * w.val) 0 s) else s
  | .reg r double =>
    let s := putCore c { k with regBad := tblPut 0 k.regBad r.val (mark double) } s
    if double then reportUc (pgSeq c) Seq.eRegUc h c site false (setErr (seqPage c) Seq.eRegUc 0 0 s) else s
  | .unitParity => reportUc (pgSeq c) Seq.eUnitParity h c site false (setErr (seqPage c) Seq.eUnitParity 0 0 s)
  | .operandParity => reportUc (pgArr c) Arr.eOperandParity h c site false (setErr (arrPage c) Arr.eOperandParity 0 0 s)
  | .acc i double =>
    let s := putCore c { k with slotBad := tblPut 0 k.slotBad i.val (mark double) } s
    if double then reportUc (pgArr c) Arr.eAccUc h c site false (setErr (arrPage c) Arr.eAccUc 0 0 s) else s

/-- The step of a FROZEN Hedge ends without replay where nothing is to be retired first and it is of class ONCE, or its replays are
used up (R222, R223); with ABORTED where a reset of its queue waits (R232). -/
def afterFreeze (h : Nat) (s : State) : State :=
  let k := getHedge s h
  match k.run with
  | none => s
  | some r =>
    if k.state ≠ .frozen ∨ r.armed = true ∨ (failedIn s k).isEmpty = false ∨ (tblFind h s.shifts).isSome = true then s
    else if r.once = false ∧ r.attempts ≤ getF s (hdgPage h) Hdg.replayMax then s
    else if (getQueue s h).resetting then settleReset h s
    else endStep h { status := if r.once then stUcNotReplayed else stReplayLimit, detail := r.reporter } s

/-- HEDGE_FREEZE: a UC, one just detected or one already reported, reaches the Fabric Engine for a RUNNING Hedge: its cores in RUN or
DONE enter FROZEN and their results in flight are discarded (R432), but for the drains of tiles whose check failed (R81). -/
def hedgeFreeze (h : Nat) (src : Option UcSource) (s : State) : State :=
  let s := match src with
    | some x => if (getHedge s h).state = .running ∧ hedgeOfCore s x.core = some h ∧ (siteOf s x.core).isSome then detect x s else s
    | none => s
  let k := getHedge s h
  match k.run, s.ucs.find? (fun u => u.hedge == h) with
  | some r, some u =>
    if k.state ≠ .running then s
    else
      let tpm := (s.ucs.filter (fun x => x.hedge == h && x.tpm)).map (fun x => x.core)
      let s := dropTags (stepCores s k) s
      let s := (stepCores s k).foldl (fun s c => finishDrains c s) s
      let s := onCores (stepCores s k) (fun c => match c.mode with
        | .run => { abandon c with mode := .frozen }
        | .done => { abandon c with mode := .frozen }
        | _ => c) s
      let k := { k with state := .frozen, run := some { r with reporter := u.core }, rewrite := k.rewrite ++ tpm }
      afterFreeze h (putHedge h k { s with ucs := s.ucs.filter (fun x => x.hedge != h) })
  | _, _ => s

def execHedgeFreeze (h : HedgeId) (src : Option UcSource) (s : State) : Host.Outcome State Fault Refusal :=
  Host.Outcome.next (hedgeFreeze h src s)

/-- REPLAY (R222 steps 3 to 5): channels flushed, lost and rewritten cores loaded, regions and Ponds restored, and the attempt armed again.
A parity error on the way repeats the restore once (R239), so that it succeeds. A queue reset that waits ends the step instead. -/
def replay (h : Nat) (parityBad : Bool) (s : State) : State :=
  let k := getHedge s h
  match k.run with
  | none => s
  | some r =>
    if k.state ≠ .frozen ∨ r.armed = true ∨ k.spareExh = true ∨ k.killWaits = true ∨ (failedIn s k).isEmpty = false ∨
      (tblFind h s.shifts).isSome = true then s
    else if hedgeAwake s k = false then wakeAll (liveClusters s k) s
    else
      let s := if parityBad then setErr (quePage h) Que.eParity 0 0 s else s
      let a := reloadCores h (flushChannels (hedgeCores k) s)
      match a.1 with
      | some e => settleReset h (endStep h e a.2)
      | none =>
        let b := restoreRegions h k true a.2
        match b.1 with
        | some e => settleReset h (endStep h e b.2)
        | none =>
          let s := (hedgeCores k).foldl (fun s c => restorePond k.pondFld k.pondArm c s) b.2
          if (getQueue s h).resetting then settleReset h s
          else
            let s := onCores (stepCores s k) coreEnd s
            let s := engineEv h 0x04 1 (addF (hdgPage h) Hdg.replayCnt 1 s)
            let s := wakeAll (liveClusters s k) s
            putHedge h { getHedge s h with run := some { r with attempts := r.attempts + 1, armed := true, told := [] }, reload := [], rewrite := [] } s

def execReplay (h : HedgeId) (parityBad : Bool) (s : State) : Host.Outcome State Fault Refusal :=
  Host.Outcome.next (replay h parityBad s)

/-! ## Kills, scrubs and retention (R156 to R158, R217) -/

/-- TE and NE descriptors under way that touch the Hedge's scratchpads end with ABORTED; what they have moved stays moved (R217, R233). -/
def abortMoves (h : Nat) (s : State) : State :=
  let s := (s.jobs.filter (fun j => queHedge s j.queue == h && jobTouches s j)).foldl (fun s j => endJob j { status := stAborted } s) s
  ((List.range 64).map (fun i => i + 32)).foldl (fun s q =>
    if queHedge s q = h then
      ((getQueue s q).flights.filter (fun f => f.started && !(spmRanges (teRanges f.desc)).isEmpty)).foldl
        (fun s f => complete q f { status := stAborted, nflags := f.nflags } s) s
    else s) s

/-- The scrub of a Hedge's plots begins: its clusters wake, and no party reads any item until it ends (R157). -/
def startScrub (h : Nat) (s : State) : State :=
  let k := getHedge s h
  let s := markScrub (hedgeCores k) 1 (flushChannels (hedgeCores k) s)
  wakeAll (liveClusters s k) (putHedge h { k with state := .scrubbing, killWaits := false, shiftHold := false } s)

/-- Completes the RESET_HEDGE or SCRUB_HEDGE that asked for what has just ended. -/
def endAsked (h : Nat) (s : State) : State :=
  match (getQueue s h).flights.find? (fun f => f.started && f.met && (dOp f.desc == 7 || dOp f.desc == 8)) with
  | some f => complete h f {} s
  | none => s

/-- The steps 2 to 5 of R217. -/
def killNow (h : Nat) (s : State) : State :=
  let s := endStep h { status := stAborted } (abortMoves h s)
  let s := match startedOp s h 3 with
    | some f => complete h f { status := stAborted } s
    | none => s
  let k := getHedge s h
  let s := onCores (stepCores s k) coreEnd s
  let s := flushChannels (hedgeCores k) s
  let s := putHedge h { getHedge s h with killWaits := false, killing := true, shiftHold := false } s
  let k := getHedge s h
  if k.postmortem ∧ k.owner.isSome then
    let s := (hedgeCores k).foldl (fun s c =>
      (List.range 16).foldl (fun s p => setF (spmPage c) Spm.pondState pondClosed s p) s) s
    endAsked h (markScrub (hedgeCores k) 2 (putHedge h { k with state := .retained, killing := false, killedAt := s.now } s))
  else startScrub h s

/-- A Hedge's binding ends now, or with the shift in progress: one in planning rolls back, one in copy is waited for (R217, R419). -/
def killSoon (h : Nat) (s : State) : State :=
  match tblFind h s.shifts with
  | some sh => if sh.started then putHedge h { getHedge s h with killWaits := true, killing := true } s else killNow h (rollback h s)
  | none => killNow h s

/-- A kill (R217): from any state but UNBOUND, SCRUBBING and RETAINED. -/
def kill (h : Nat) (s : State) : State :=
  match heldState s h with
  | .unbound => s
  | .scrubbing => s
  | .retained => s
  | _ => killSoon h s

/-- KILL: a write of HEDGE_CTL.KILL by the owner. -/
def execKill (conn : ConnId) (h : HedgeId) (s : State) : Host.Outcome State Fault Refusal :=
  Host.Outcome.next (if ownsHedge s conn h then kill h s else s)

/-- Marks a descriptor as acted on. -/
def markMet (q i : Nat) (s : State) : State :=
  let k := getQueue s q
  putQueue q { k with flights := k.flights.map (fun f => if f.index = i then { f with met := true } else f) } s

/-- States in which RESET_HEDGE and SCRUB_HEDGE are allowed (R215). -/
def mayScrub (k : Hedge) (retainedToo : Bool) : Bool :=
  match k.state with
  | .bound => true
  | .ready => true
  | .frozen => k.spareExh
  | .retained => retainedToo
  | _ => false

/-- RESET_HEDGE: a kill; the descriptor completes when it reaches RETAINED or UNBOUND. -/
def resetHedge (h : Nat) (s : State) : State :=
  match startedOp s h 7 with
  | none => s
  | some f =>
    if f.met then s
    else if mayScrub (getHedge s h) false = false then complete h f { status := stHedgeState, detail := hCode (getHedge s h).state } s
    else kill h (markMet h f.index s)

def execResetHedge (h : HedgeId) (s : State) : Host.Outcome State Fault Refusal := Host.Outcome.next (resetHedge h s)

/-- The binding or the retention ends with a scrub. -/
def scrubNow (h : Nat) (s : State) : State :=
  let k := getHedge s h
  startScrub h (onCores (stepCores s k) coreEnd (abortMoves h s))

/-- SCRUB_HEDGE: completes when the scrub ends. -/
def scrubHedge (h : Nat) (s : State) : State :=
  match startedOp s h 8 with
  | none => s
  | some f =>
    if f.met then s
    else if mayScrub (getHedge s h) true = false then complete h f { status := stHedgeState, detail := hCode (getHedge s h).state } s
    else scrubNow h (markMet h f.index s)

def execScrubHedge (h : HedgeId) (s : State) : Host.Outcome State Fault Refusal := Host.Outcome.next (scrubHedge h s)

/-- SCRUB: a write of HEDGE_CTL.SCRUB by the owner acts as SCRUB_HEDGE outside any queue; in a state that does not allow it, nothing. -/
def execScrub (conn : ConnId) (h : HedgeId) (s : State) : Host.Outcome State Fault Refusal :=
  Host.Outcome.next (if ownsHedge s conn h ∧ mayScrub (getHedge s h) true = true ∧ (tblFind h s.shifts).isNone = true then scrubNow h s else s)

/-- What an unbinding leaves of a Hedge number: its owner. -/
def unbound (k : Hedge) : Hedge := { owner := k.owner }

/-- SCRUB_COMPLETE: with every cluster clocked, every site of the plots is scrubbed and the number is UNBOUND. Plots whose retirements
found no spare are disabled now, and sites that failed meanwhile are spared in the unbound plots (R423). -/
def scrubComplete (h : Nat) (s : State) : State :=
  let k := getHedge s h
  if k.state ≠ .scrubbing ∨ clocked s k = false then s
  else
    let plots := hedgePlots k
    let s := (hedgeCores k).foldl (fun s c => scrubCore c s) s
    let s := markScrub (hedgeCores k) 0 s
    let s := (hedgeClusters k).foldl (fun s cl => touch cl s) s
    let fails := (failedIn s k).map (fun e => e.1)
    let plotOf := fun p => (touchedPlot s p).getD (plotOfSite p)
    let doomed := s.doomed.filter (fun p => decide (plotOf p ∈ plots))
    let gone := (doomed.map plotOf).eraseDups
    let s := broadcastPlots (putHedge h (unbound k) { s with failed := s.failed.filter (fun e => e.1 ∉ fails) })
    let s := fails.foldl (fun s p => spareUnbound p s) s
    let late := doomed.filter (fun p => p ∉ s.holes)
    let s := if late.isEmpty then s else holeAtOnce late s
    let s := gone.foldl (fun s p => disablePlot p s) { s with doomed := s.doomed.filter (fun p => p ∉ doomed) }
    endAsked h s

def execScrubComplete (h : HedgeId) (s : State) : Host.Outcome State Fault Refusal := Host.Outcome.next (scrubComplete h s)

/-- RETENTION_END: 1,000,000,000 reference edges after the kill (R158). -/
def retentionEnd (h : Nat) (s : State) : State :=
  let k := getHedge s h
  if k.state = .retained ∧ k.killedAt + 1000000000 ≤ s.now then startScrub h s else s

def execRetentionEnd (h : HedgeId) (s : State) : Host.Outcome State Fault Refusal := Host.Outcome.next (retentionEnd h s)

/-! ## Fence and events (R210, R211, R215) -/

/-- FENCE completes when every descriptor it waits for has completed. -/
def fence (h : Nat) (s : State) : State :=
  match startedOp s h 4 with
  | none => s
  | some f =>
    let open' := f.fence.any (fun e =>
      let k := getQueue s e.1
      k.flights.any (fun x => x.index == e.2) || k.compl.any (fun x => x.index == e.2))
    if open' then s else complete h f {} s

def execFence (h : HedgeId) (s : State) : Host.Outcome State Fault Refusal := Host.Outcome.next (fence h s)

/-- SIGNAL_EVENT: ADD or SET, on a counter its number may signal. -/
def signalEvent (h : Nat) (s : State) : State :=
  match startedOp s h 5 with
  | none => s
  | some f =>
    let i := dNat f.desc 0x10 2
    let v := dNat f.desc 0x18 8
    if ctrAdmits s h i = false then complete h f { status := stEventDenied, detail := i } s
    else complete h f {} (if dNat f.desc 0x12 1 = 0 then ctrAdd i v s else ctrSet i v s)

def execSignalEvent (h : HedgeId) (s : State) : Host.Outcome State Fault Refusal := Host.Outcome.next (signalEvent h s)

/-- WAIT_EVENT completes once the counter is at or above VALUE, in 64 bits, with the value seen. -/
def waitEvent (h : Nat) (s : State) : State :=
  match startedOp s h 6 with
  | none => s
  | some f =>
    let i := dNat f.desc 0x10 2
    let v := tblGet 0 s.evt i
    if ctrAdmits s h i = false then complete h f { status := stEventDenied, detail := i } s
    else if f.met then complete h f { detail := f.seen } s
    else if dNat f.desc 0x18 8 ≤ v then complete h f { detail := v } s
    else s

def execWaitEvent (h : HedgeId) (s : State) : Host.Outcome State Fault Refusal := Host.Outcome.next (waitEvent h s)

/-- A descriptor waits, and its condition holds now: the counter's value. -/
def waitMetNow (s : State) (q : Nat) (f : Flight) : Option Nat :=
  if f.started then
    if q < 32 ∧ dOp f.desc = 6 ∧ dNat f.desc 0x18 8 ≤ tblGet 0 s.evt (dNat f.desc 0x10 2) then some (tblGet 0 s.evt (dNat f.desc 0x10 2)) else none
  else if dFlag f.desc 3 ∧ dWaitValue f.desc ≤ tblGet 0 s.evt (dWaitCtr f.desc) % 2 ^ 32 then some (tblGet 0 s.evt (dWaitCtr f.desc))
  else none

/-- EVENT_WAIT_MET: a waiter of a queue becomes eligible, and stays so whatever the counter does next (R211). -/
def eventWaitMet (q : Nat) (s : State) : State :=
  let k := getQueue s q
  putQueue q { k with flights := k.flights.map (fun f =>
    match waitMetNow s q f with
    | some v => if f.met then f else { f with met := true, seen := v }
    | none => f) } s

def execEventWaitMet (q : QueueId) (s : State) : Host.Outcome State Fault Refusal := Host.Outcome.next (eventWaitMet q s)

/-- EVT_HI_WRITE: stages the high word, for the owner of the home number. -/
def execEvtHiWrite (conn : ConnId) (i : CtrId) (v : Word32) (s : State) : Host.Outcome State Fault Refusal :=
  Host.Outcome.next (if ownsHedge s conn (ctrHome i) then { s with evtStage := tblPut 0 s.evtStage i v.toNat } else s)

/-- EVT_LO_WRITE: the counter takes the staged high word and the written low word. -/
def execEvtLoWrite (conn : ConnId) (i : CtrId) (v : Word32) (s : State) : Host.Outcome State Fault Refusal :=
  Host.Outcome.next (if ownsHedge s conn (ctrHome i) then ctrSet i (tblGet 0 s.evtStage i * 2 ^ 32 + v.toNat) s else s)

/-- The read latch of a counter takes its high word. -/
def latchEvt (i : Nat) (s : State) : State := { s with evtLatch := tblPut 0 s.evtLatch i (tblGet 0 s.evt i / 2 ^ 32) }

/-- EVT_LO_READ by the owner of the home number; any other connection reads zero and latches nothing. -/
def execEvtLoRead (conn : ConnId) (i : CtrId) (s : State) : Host.Outcome State Fault Refusal :=
  Host.Outcome.next (if ownsHedge s conn (ctrHome i) then latchEvt i s else s)

/-! ## Segments (R202, R238) -/

/-- SEG_OWNER_ASSIGN: an offered segment, neither assigned nor SCRUBBING, to a number the writer owns. -/
def segAssign (g h : Nat) (s : State) : State :=
  if getF s segPage Seg.count ≤ g ∨ segAssigned s g = true ∨ segScrubbing s g = true then s else setSegOwner g (h + 32) s

def execSegOwnerAssign (conn : ConnId) (g : SegId) (h : HedgeId) (s : State) : Host.Outcome State Fault Refusal :=
  Host.Outcome.next (if ownsHedge s conn h then segAssign g h s else s)

/-- A segment is released and its zero fill starts; its entry keeps a Hedge number, ASSIGNED clear. -/
def segRelease (g h : Nat) (s : State) : State :=
  if segAssigned s g then setSegScrubbing g 1 (setSegOwner g (h % 32) s) else s

def execSegOwnerRelease (conn : ConnId) (g : SegId) (s : State) : Host.Outcome State Fault Refusal :=
  Host.Outcome.next (if ownsHedge s conn (segHedge s g) then segRelease g (segHedge s g) s else s)

/-- SEGMENT_FILL_END: the whole segment is zero. -/
def segFillEnd (g : Nat) (s : State) : State :=
  if segScrubbing s g then
    setSegScrubbing g 0 (memZero (mereBase + g * 2 ^ 30) (mereBase + (g + 1) * 2 ^ 30) s)
  else s

def execSegmentFillEnd (g : SegId) (s : State) : Host.Outcome State Fault Refusal := Host.Outcome.next (segFillEnd g s)

/-! ## Owners (R200) -/

/-- A queue whose owner has gone: disabled, its descriptors ended, and no record is delivered any more (R200, R233). -/
def dropQueue (q : Nat) (s : State) : State :=
  let s := (s.jobs.filter (fun j => j.queue == q)).foldl (fun s j => endJob j { status := stAborted } s) s
  setF (quePage q) Que.en 0 (putQueue q { getQueue s q with flights := [], compl := [], held := false, stopped := false, resetting := false } s)

/-- Ownership ends: the number's queues are disabled, its segments released, its counters zero and EVT_ADMIT clear;
its claim on the device stream of the collector ends (R493). -/
def endOwnership (h : Nat) (s : State) : State :=
  let s := (List.range 132).foldl (fun s q => if queHedge s q = h then dropQueue q s else s) s
  let s := (List.range 744).foldl (fun s g => if segAssigned s g ∧ segHedge s g = h then segRelease g h s else s) s
  let s := setF (hdgPage h) Hdg.evtAdmit 0 (zeroCounters h s)
  let s := { s with sessions := s.sessions.filter (fun e => !(decide (e.1 < 4) && queHedge s (128 + e.1) == h)) }
  let s := if getF s colPage Col.devHeld = 1 ∧ getF s colPage Col.devHedge = h then setF colPage Col.devHeld 0 s else s
  putHedge h { getHedge s h with owner := none } s

/-- CLAIM: an open host connection takes a number that has no owner; REPLAY_CNT and EVT_DENIED_CNT start from zero (R237). -/
def claim (conn h : Nat) (s : State) : State :=
  let k := getHedge s h
  let c := getConn s conn
  if k.owner.isSome ∨ c.state ≠ .opened ∨ c.kind ≠ 0 then s
  else setF (hdgPage h) Hdg.replayCnt 0 (setF (hdgPage h) Hdg.evtDeniedCnt 0 (putHedge h { k with owner := some conn } s))

def execClaim (conn : ConnId) (h : HedgeId) (s : State) : Host.Outcome State Fault Refusal := Host.Outcome.next (claim conn h s)

/-- RELEASE by the owner of an UNBOUND number; otherwise nothing. -/
def release (conn h : Nat) (s : State) : State :=
  if ownsHedge s conn h ∧ (getHedge s h).state = .unbound then endOwnership h s else s

def execRelease (conn : ConnId) (h : HedgeId) (s : State) : Host.Outcome State Fault Refusal := Host.Outcome.next (release conn h s)

/-- The owner's connection has closed (R200, R217): a kill without retention, then the end of ownership. -/
def ownerClosed (conn : Nat) (s : State) : State :=
  (List.range 32).foldl (fun s h =>
    if ownsHedge s conn h then
      let s := putHedge h { getHedge s h with owner := none } s
      let s := match (getHedge s h).state with
        | .unbound => s
        | .scrubbing => s
        | .retained => startScrub h s
        | _ => killSoon h s
      endOwnership h s
    else s) s

end Sys2Proof.Machine
end

