-- ==== Sys2Proof/Machine/Sparing.lean ====
section
/-!
DEFINITION. Runtime sparing, by R414 to R423: heartbeats, persistent router failures, and shifts from plan to commit. The rows of the
fabric stand here, since a failing link retires a site.
-/
namespace Sys2Proof.Machine

/-! ## Detection (R415, R416) -/

/-- Writes a retired site to the field defect log, once; the sites of a cluster are logged with their cluster (R403, R420). -/
def noteSite (cause p : Nat) (s : State) : State :=
  if cause < 0xE0 ∨ s.dlog.any (fun d => d.kind == 0 && d.unit == p) = true then s else logDefect 0 cause 0xFF p s

/-- A site failure confirmed in service: logged, UC against the Hedge of its core, and retired at once. The packets its router holds are lost (R183). -/
def siteFails (cause p : Nat) (s : State) : State :=
  if p ∈ s.holes ∨ s.failed.any (fun e => e.1 == p) = true then s
  else
    let s := losePackets p (noteSite cause p s)
    let s := match coreOfSite s p with
      | some c =>
        let d := draw s
        reportUcRead pgBup (d.1 % 2 ^ 16) (hedgeOfCore s c) p none d.2
      | none => s
    failSite cause p s

/-- Retires the sites that link errors condemned (R416). -/
def takeSuspects (s : State) : State :=
  s.suspects.foldl (fun s p => siteFails 0xE1 p s) { s with suspects := [] }

def execDynamicPacketHop (ident : Nat) (header : LineError) (s : State) : Host.Outcome State Fault Refusal :=
  Host.Outcome.next (takeSuspects (packetHop ident header s))

def execStaticFlit (c : CoreId) (mv : FlitMove) (ch : Fin 8) (err : FlitError) (s : State) : Host.Outcome State Fault Refusal :=
  Host.Outcome.next (takeSuspects (staticFlit c mv ch err s))

/-- HEARTBEAT: a router that is clocked sends ALIVE or not, or QUIET before its cluster's clock stops (R415). -/
def heartbeat (p : Nat) (alive quiet : Bool) (s : State) : State :=
  if p ∈ s.holes ∨ clkState s (clusterOfSite p) ≠ 1 then s
  else
    let s := setF (sitePage p) Site.alive (if alive then 1 else 0) s
    let others := s.hbQuiet.filter (· != p)
    { s with hbAt := tblPut 0 s.hbAt p s.now, hbQuiet := if quiet then insertAsc p others else others }

def execHeartbeat (p : SiteId) (alive quiet : Bool) (s : State) : Host.Outcome State Fault Refusal :=
  Host.Outcome.next (heartbeat p alive quiet s)

/-- Four heartbeats missed in a row, at one every 1,024 local cycles, with none expected after a QUIET one. -/
def hbMissed (s : State) (p : Nat) : Bool :=
  decide (p ∉ s.hbQuiet) && decide (4096 ≤ (s.now - tblGet 0 s.hbAt p) * stepCode s) && clkState s (clusterOfSite p) == 1

/-- HEARTBEAT_LOSS: the loss or a clear ALIVE is reported, and the poll over the ring confirms it where it shows no ALIVE (R415). -/
def heartbeatLoss (p : Nat) (pollAlive : Bool) (s : State) : State :=
  if p ∈ s.holes ∨ (hbMissed s p = false ∧ getF s (sitePage p) Site.alive = 1) ∨ pollAlive = true then s
  else siteFails 0xE0 p (setF (sitePage p) Site.alive 0 s)

def execHeartbeatLoss (p : SiteId) (pollAlive : Bool) (s : State) : Host.Outcome State Fault Refusal :=
  Host.Outcome.next (heartbeatLoss p pollAlive s)

/-! ## Shifts (R417 to R423) -/

/-- A shift begins: the Hedge is FROZEN, receiving clusters wake, and SPARE_STAT shows it. -/
def beginShift (h : Nat) (sites : List Nat) (planned : Bool) (s : State) : State :=
  let k := getHedge s h
  let sh : Shift := { sites := sites, planned := planned, resume := k.state }
  let s := putHedge h { k with state := .frozen } { s with shifts := tblInsert h sh s.shifts }
  let s := wakeAll (shiftReceivers sites) s
  let s := setF bupPage Bup.planned (if planned then 1 else 0) (setF bupPage Bup.shiftHedge h s)
  showShift (setF bupPage Bup.rollbackBit 0 s)

/-- An immediate retirement that finds no spare (R423, R227): holes at once, SPARE_EXH, the step ends, and the Hedge stays FROZEN. A
RETAINED Hedge stays so. -/
def noSpareNow (h : Nat) (sites : List Nat) (s : State) : State :=
  let old := s
  let k := getHedge s h
  let bad := (sites.find? (shortSite s)).getD (sites.getD 0 0)
  let plot := (touchedPlot s bad).getD (plotOfSite bad)
  let s := holeAtOnce sites { s with failed := s.failed.filter (fun e => e.1 ∉ sites) }
  -- The loss of a spare that carries a path east dooms the plot of that path's end, where there is a hole.
  let far := fun p => if (coreOfSite old p).isSome then p else p + 1
  let s := setErr bupPage Bup.eSpareExhausted 0 0 { s with doomed := sites.foldl (fun l p => insertAsc (far p) l) (insertAsc (far bad) s.doomed) }
  let s := endStep h { status := stSpareExhausted, detail := plot } s
  let st := if k.state = .retained then HState.retained else .frozen
  settleReset h (putHedge h { getHedge s h with state := st, spareExh := true } s)

/-- SHIFT_PLAN: plans the immediate retirements of a Hedge that is frozen or runs no step. -/
def shiftPlan (h : Nat) (s : State) : State :=
  let k := getHedge s h
  let fails := failedIn s k
  let may : Bool := match k.state with
    | .frozen => true
    | .bound => true
    | .ready => true
    | .retained => true
    | _ => false
  if fails.isEmpty = true ∨ (tblFind h s.shifts).isSome = true ∨ may = false then s
  else
    let sites := fails.map (fun e => e.1)
    let s := fails.foldl (fun s e => noteSite e.2 e.1 s) s
    if shortSites s sites then noSpareNow h sites s else beginShift h sites false s

def execShiftPlan (h : HedgeId) (s : State) : Host.Outcome State Fault Refusal := Host.Outcome.next (shiftPlan h s)

/-- SHIFT_COPY: every moving core's items cross the lanes, once the receiving clusters are clocked. A lane parity failure repeats the
copy once; a second rolls the shift back and its sending site counts as failed (R419). -/
def shiftCopy (h : Nat) (lane : Option Nat) (s : State) : State :=
  match tblFind h s.shifts with
  | none => s
  | some sh =>
    if sh.copied ∨ (shiftReceivers sh.sites).any (fun cl => clkState s cl != 1) = true then s
    else
      let put := fun (x : Shift) (s : State) => { s with shifts := tblInsert h x s.shifts }
      match lane with
      | none => put { sh with started := true, copied := true } s
      | some p =>
        if sh.sites.any (fun q => siteRow q == siteRow p && siteCol q / 9 == siteCol p / 9 && decide (siteCol q ≤ siteCol p)) = false then s
        else if sh.tries = 0 then put { sh with started := true, tries := 1 } s
        else
          let d := draw s
          let s := failSite (0xE0 + d.1 % 4) p (rollback h d.2)
          if (getHedge s h).killWaits then killNow h s else s

def execShiftCopy (h : HedgeId) (lane : Option SiteId) (s : State) : Host.Outcome State Fault Refusal :=
  Host.Outcome.next (shiftCopy h (lane.map (fun p => p.val)) s)

/-- The clock of a cluster stops: PARK (R351). -/
def parkClock (cl : Nat) (s : State) : State :=
  setF (clkPage cl) Clk.pendingStep 0 (setF (clkPage cl) Clk.det 0 (setF (clkPage cl) Clk.stretching 0
    (setF (clkPage cl) Clk.state 0 (setF (clkPage cl) Clk.locked 0 (setF (clkPage cl) Clk.step 0 s)))))

/-- What a Spring shows once its input switch is open. -/
def springOff (cl st : Nat) (s : State) : State :=
  let s := setF (sprPage cl) Spr.state st (setF (sprPage cl) Spr.pgood 0 (setF (sprPage cl) Spr.ffActive 0 s))
  setF (sprPage cl) Spr.vtgt 0 (setF (sprPage cl) Spr.iout 0 (setF (sprPage cl) Spr.vout 0 s))

/-- BLK_ERRINFO of a Spring page: the trip cause in [7:0], the last failed phase in [11:8] (R342). -/
def springInfo (cl lo len v : Nat) (s : State) : State :=
  let i := getF s (sprPage cl) Hdr.errInfo
  setF (sprPage cl) Hdr.errInfo (i - bitsOf i lo len * 2 ^ lo + v * 2 ^ lo) s

/-- A cluster whose planned retirement is done: its Spring opens its input switch and is RETIRED with cause PLANNED, its clock PARKs (R335, R336, R351). -/
def retireCluster (cl : Nat) (s : State) : State :=
  let s := { s with clus := tblPut {} s.clus cl { tblGet {} s.clus cl with relock := false, recalAt := none },
                    wakeReqs := s.wakeReqs.filter (· != cl) }
  logDefect 1 0x06 0xFF cl (parkClock cl (springOff cl 5 (springInfo cl 0 8 6 s)))

/-- The clusters whose planned retirement a list of sites is. -/
def plannedClusters (s : State) (sites : List Nat) : List Nat :=
  ((s.planned.filter (fun e => e.2 == 0x06 && decide (e.1 ∈ sites))).map (fun e => clusterOfSite e.1)).eraseDups

/-- SHIFT_COMMIT: items, map, routers and MAP_ROW change together; the Hedge leaves the shift as it entered it. Lost cores are noted for
R421, a kill or reset that waited goes on, and an armed step takes its lost cores before it starts. -/
def shiftCommit (h : Nat) (s : State) : State :=
  match tblFind h s.shifts with
  | none => s
  | some sh =>
    if sh.copied = false then s
    else
      let lostNow := if sh.planned then [] else sh.sites.filterMap (coreOfSite s)
      let cls := plannedClusters s sh.sites
      let s := commitShift sh s
      let s := cls.foldl (fun s cl => retireCluster cl s) s
      let k := getHedge s h
      let img : Bool := sh.resume == .ready || (sh.resume == .frozen && k.run.isSome)
      let k := { k with state := sh.resume, shiftHold := false, reload := if img then k.reload ++ lostNow else k.reload }
      let s := showShift (putHedge h k { s with shifts := tblErase h s.shifts })
      if k.killWaits then killNow h s
      else
        let s := match k.run with
          | some r =>
            if r.armed then
              let a := restoreLost h s
              match a.1 with
              | some e => endStep h e a.2
              | none => a.2
            else s
          | none => s
        advanceJobs (afterFreeze h (if k.run.isNone then settleReset h s else s))

def execShiftCommit (h : HedgeId) (s : State) : Host.Outcome State Fault Refusal := Host.Outcome.next (shiftCommit h s)

/-- Caps the largest effective limit of a cluster at 20 A where its planned retirement finds no spare (R335). -/
def capCluster (cl : Nat) (s : State) : State :=
  let c := tblGet {} s.clus cl
  let s := { s with clus := tblPut {} s.clus cl { c with impCap := min c.impCap 20 } }
  setF (sprPage cl) Spr.efflim (min (getF s (sprPage cl) Spr.efflim) 20) s

/-- PLANNED_RETIREMENT of a site, or of its whole cluster where the cause is PLANNED (R335, R422, R423): at once in an unbound plot, by a
shift while the Hedge runs no step, and otherwise not yet. -/
def plannedRetirement (p : Nat) (s : State) : State :=
  match s.planned.find? (fun e => e.1 == p) with
  | none => s
  | some e =>
    let cl := clusterOfSite p
    let whole := e.2 == 0x06
    let sites := if whole then (s.planned.filter (fun x => x.2 == 0x06 && clusterOfSite x.1 == cl)).map (fun x => x.1) else [p]
    let drop := fun (s : State) => showShift { s with planned := s.planned.filter (fun x => x.1 ∉ sites) }
    let note := fun (s : State) => if whole then s else noteSite e.2 p s
    let used := sites.filter (fun q => (touchedPlot s q).isSome)
    let short := shortSites s used
    let refuse := fun (s : State) =>
      let s := noSpareNotice p (drop s)
      if whole then capCluster cl s else { note s with doomed := insertAsc p s.doomed }
    let now' := fun (s : State) =>
      let cls := plannedClusters s sites
      let s := drop (commitShift { sites := sites, planned := true, resume := .unbound } (note s))
      cls.foldl (fun s cl => retireCluster cl s) s
    if used.isEmpty then now' s
    else match hedgeOfPlot s ((touchedPlot s (used.getD 0 0)).getD 0) with
      | none => if short = false then now' s
        else if whole then refuse s
        else noSpareNotice p (spareUnbound p (drop (note s)))
      | some h =>
        let k := getHedge s h
        let idle : Bool := k.run.isNone && (k.state == .bound || k.state == .ready) && (failedIn s k).isEmpty
        if idle = false then s
        else if short then
          let s := refuse s
          putHedge h { getHedge s h with shiftHold := !(plannedIn s (getHedge s h)).isEmpty } s
        else beginShift h sites true (note s)

def execPlannedRetirement (p : SiteId) (s : State) : Host.Outcome State Fault Refusal := Host.Outcome.next (plannedRetirement p s)

end Sys2Proof.Machine
end

