-- ==== Sys2Proof/Machine/Resets.lean ====
section
/-!
DEFINITION. Resets and the loss of power, by R368, R369, R435, R436, R443 to R445, R530 and R531: what each clears and what it keeps; the cap in force;
the commit of the journal.
-/
namespace Sys2Proof.Machine

/-! ## The cap in force (R2, R368) -/

/-- Bars in GOOD. -/
def barsGood (s : State) : Nat :=
  (if getF s inpPage Inp.bar0State = 0 then 1 else 0) + (if getF s inpPage Inp.bar1State = 0 then 1 else 0)

/-- C: the smallest of the last accepted cap and the limits in force. -/
def capNow (s : State) : Nat :=
  let m := fusedMax s
  let c := min s.flash.lastCap m
  let c := if barsGood s = 1 then min c (m / 2) else c
  let g := getF s inpPage Inp.good
  let c := if getF s pctPage Pct.cellsLow = 1 then min c (m * g / 68) else c
  min c (m - m * (5 * s.pwr.mereCut) / 100)

/-- Watts received less watts given over the STEERED Hedges. -/
def netWatts (s : State) : Int :=
  s.grants.foldl (fun (n : Int) g => if g.given then n - (g.watts : Int) else n + (g.watts : Int)) 0

/-- PCTL_CAP follows what it is made of: C, and C_eff up to the fused maximum. -/
def setCap (s : State) : State :=
  let c := capNow s
  let e := min ((c : Int) + netWatts s).toNat (fusedMax s)
  setF pctPage Pct.capEff e (setF pctPage Pct.cap c s)

/-! ## What is lost (R443, R445) -/

/-- Everything on the die outside Privet, and all of Mere, loses its contents (R324). Privet, its flash and the pins stay. -/
def wipeDie (s : State) : State :=
  { ({} : State) with
    fld := tblDrop 0 (prvPage * 32) s.fld, dlog := s.dlog, outbox := s.outbox, jbuf := s.jbuf, jover := s.jover, powerOn := s.powerOn,
    bootNo := s.bootNo, bootAt := s.bootAt, now := s.now, freeCtr := s.freeCtr, pending := s.pending, pwr := s.pwr, deadCells := s.deadCells, fuses := s.fuses,
    flash := s.flash, boot := s.boot, fresh := s.fresh, siteUc := s.siteUc, siteCe := s.siteCe, busy := s.busy, resetEdge := s.resetEdge, nextGrant := s.nextGrant }

/-- Registers of Privet that a device reset keeps: the input stage and REF_STAT show the module as it is; the boot ring, BOOT_SEQ,
SPARE_RETIRE_CNT, PRIV_WDOG_CNT and JRNL_SEQ outlast it. -/
def keepsReg (a : Nat) : Bool :=
  decide (inpPage + 0x40 ≤ a ∧ a < inpPage + 0x1000) || a == refPage + 0x40 || decide (brgPage 0 ≤ a ∧ a < brgPage 8 ∧ 0x800 ≤ a % 0x1000) ||
    a == bupPage + 0x44 || a == bupPage + 0x58 || a == prvPage + 0x4C || a == errPage + 0x54

/-- BLK_ERR bits that outlast this reset show again. -/
def restoreErrs (l : List Nat) (s : State) : State := l.foldl (fun s e => orF (e / 32) Hdr.err (2 ^ (e % 32)) s) s

/-- A bring-up is running: its stage and number are what an interruption leaves for the next S0 (R398). -/
def bootRunning (s : State) : Bool := getF s bupPage Bup.state == 0 && s.boot.begun

/-- A reset or a loss of power ends a trial boot that has not reached S10, and while the inactive slot is written or verified leaves it marked invalid (R447). -/
def dropUpdate (s : State) : Flash :=
  let fl := match s.busy with
    | none => s.flash
    | some _ => if s.flash.slot = 0 then { s.flash with validB := false, torn := true } else { s.flash with validA := false, torn := true }
  if fl.trial ∧ bootRunning s then { fl with trials := fl.trials + 1 } else fl

/-- The record of an update that a reset ended, journalled at S0. -/
def noteUpdate (s : State) : State :=
  if s.flash.torn then journalEvent pgSec 0xFF 0 { s with flash := { s.flash with torn := false } } else s

/-- A device reset (R445), with its cause of R450. After a thermal trip it is ignored (R531). -/
def deviceReset (cause : Nat) (s : State) : State :=
  if s.pwr.thermTrip ∨ s.pwr.privetOn = false then s
  else
    let broken := if bootRunning s then some (getF s bupPage Bup.stage, s.bootNo) else s.boot.broken
    let debug := if getF s prvPage Prv.debugPending = 1 then 1 else getF s prvPage Prv.debug
    let fl := dropUpdate s
    let w := { wipeDie s with
      fld := s.fld.filter (fun e => keepsReg (e.1 / 32)), fresh := [], siteUc := [], siteCe := [], flash := fl, busy := none, resetEdge := s.now,
      boot := { broken := broken }, pwr := { resetLow := s.pwr.resetLow, forceLow := s.pwr.forceLow } }
    let w := restoreErrs s.fresh (setF prvPage Prv.debug debug w)
    let w := setF errPage Err.interrupted (if bootRunning s then 1 else 0) (setF errPage Err.rstCause cause w)
    let w := setF pctPage Pct.cellsLow (if getF w inpPage Inp.good < 68 ∧ getF w inpPage Inp.bulkEn = 1 then 1 else 0) w
    setCap (noteUpdate (journal jReset pgErr cause 0xFF 0 (setF pctPage Pct.oneBar (if barsGood w = 1 then 1 else 0) w)))

/-- What an unpowered module keeps: flash and fuses, the bars as they stand, and the bits of BLK_ERR the reset that follows keeps. -/
def unpowered (s : State) : State :=
  { ({} : State) with
    fld := s.fld.filter (fun e => e.1 / 32 == inpPage + 0x40 || e.1 / 32 == errPage + 0x54), dlog := s.dlog, outbox := s.outbox,
    powerOn := s.powerOn, now := s.now, resetEdge := s.now, freeCtr := s.freeCtr, pending := s.pending, fuses := s.fuses, flash := dropUpdate s, fresh := s.fresh,
    pwr := { privetOn := false, resetLow := s.pwr.resetLow, forceLow := s.pwr.forceLow, thermTrip := s.pwr.thermTrip } }

/-- A power-on reset (R445): the cap becomes CAP_DEFAULT, the power-on count advances, and Privet starts at S0. -/
def powerOn (s : State) : State :=
  let w := unpowered s
  let w := { w with powerOn := s.powerOn + 1, fresh := [], flash := { w.flash with lastCap := w.flash.capDef },
                    pwr := { w.pwr with privetOn := true, thermTrip := false } }
  setCap (noteUpdate (journal jReset pgErr 0 0xFF 0 (restoreErrs s.fresh (setF errPage Err.rstCause 0 w))))

/-! ## Rows -/

/-- The state and the voltage of a bar. -/
def setBar (b st : Nat) (dv : Nat) (s : State) : State :=
  let on := if st = 0 then 1 else 0
  if b = 0 then setF inpPage Inp.bar0Volts dv (setF inpPage Inp.bar0On on (setF inpPage Inp.bar0State st s))
  else setF inpPage Inp.bar1Volts dv (setF inpPage Inp.bar1On on (setF inpPage Inp.bar1State st s))

def barState (s : State) (b : Nat) : Nat := getF s inpPage (if b = 0 then Inp.bar0State else Inp.bar1State)

/-- A voltage at which a bar may become GOOD: 30 to 40 V (R322). -/
def goodVolts (dv : Nat) : Bool := decide (300 ≤ dv ∧ dv ≤ 400)

/-- POWER_ON_RESET: a bar's input is applied while Privet is unpowered, and the bar is GOOD (R322, R445). -/
def execPowerOnReset (b : Fin 2) (decivolts : Fin 1024) (s : State) : Host.Outcome State Fault Refusal :=
  Host.Outcome.next (if s.pwr.privetOn || !goodVolts decivolts.val then s else powerOn (setBar b.val 0 decivolts.val s))

/-- RESET_N low for a number of reference edges: 10 µs or more start a device reset (R531). -/
def execResetN (edges : Word32) (s : State) : Host.Outcome State Fault Refusal :=
  Host.Outcome.next (if edges.toNat < 1000 then s
    else
      let s := { s with pwr := { s.pwr with resetLow := true } }
      deviceReset 1 s)

/-- RESET_N_RELEASE: RESET_N is high, and bring-up may start at S0. -/
def execResetNRelease (s : State) : Host.Outcome State Fault Refusal :=
  Host.Outcome.next { s with pwr := { s.pwr with resetLow := false } }

/-- PWR_GOOD falls and bulk enable drops: the die and Mere lose everything. -/
def dropBulk (s : State) : State :=
  let w := wipeDie s
  let w := { w with pwr := { w.pwr with pwrGood := false, arm := none, switched := none, droopAt := none } }
  setF inpPage Inp.good 0 (setF inpPage Inp.bulkEn 0 w)

/-- Records of the journal buffer go to flash, which holds the last 131,072 of them. -/
def flushJournal (s : State) : State :=
  let all := s.flash.journal ++ s.jbuf
  let keep := all.drop (all.length - 131072)
  { s with jbuf := [], jover := 0, flash := { s.flash with journal := keep } }

/-- POWER_FAIL: both bars are out of GOOD; bulk enable drops, and Privet writes the log, the journal buffer and a POWER_FAIL record into the tail (R324,
R443). -/
def execPowerFail (s : State) : Host.Outcome State Fault Refusal :=
  Host.Outcome.next (if barsGood s ≠ 0 ∨ s.pwr.failing ∨ s.pwr.privetOn = false then s
    else
      let s := keepErr inpPage Inp.ePowerFail (setErr inpPage Inp.ePowerFail 0 0 s)
      let s := dropBulk (journal jEvent pgInp Inp.ePowerFail 0xFF 0 s)
      flushJournal { s with pwr := { s.pwr with failing := true } })

/-- PRIVET_POWER_DOWN: both bars are below 18 V after POWER_FAIL, and Privet loses regulation (R444). -/
def execPrivetPowerDown (s : State) : Host.Outcome State Fault Refusal :=
  Host.Outcome.next (if s.pwr.failing ∧ barsGood s = 0 then unpowered s else s)

/-- CEs that no record carries yet are journalled a second after the last record of their block (R435). -/
def ceRecords (s : State) : State :=
  (s.ceAgg.filter (fun e => decide (0 < e.2.n ∧ e.2.at_ + secEdges ≤ s.now))).foldl (fun s e =>
    match pageAt s e.1 with
    | some pg => ceRecord pg e.2 s
    | none => s) s

/-- The commit: the buffer, and after it one OVERFLOW record that counts the records lost to a full buffer (R435). -/
def commitJournal (s : State) : State :=
  let n := s.jover
  let s := flushJournal s
  if n = 0 then s else flushJournal (journal jOverflow pgErr Err.eJrnlOverflow 0xFF n s)

/-- JOURNAL_COMMIT: every 1 ms, and not after POWER_FAIL or while Privet is away (R435, R443, R446). -/
def execJournalCommit (s : State) : Host.Outcome State Fault Refusal :=
  Host.Outcome.next (if s.pwr.failing ∨ s.pwr.away.isSome ∨ s.pwr.privetOn = false then s else commitJournal (ceRecords s))

end Sys2Proof.Machine
end

