-- ==== Sys2Proof/Machine/Power.lean ====
section
/-!
DEFINITION. Power delivery, by R322 to R346: bars, bulk cells and rail, and the Springs with their phases, forecasts, wakes, impedance estimates and
trips.
-/
namespace Sys2Proof.Machine

/-! ## Force-minimum (R362, R371, R388) -/

def allClusters : List Nat := List.range 288

/-- Bases and indices of the cluster record of R395. -/
def cpcBase (cl : Nat) : Nat := cpcPage (cl / 128)
def getC (s : State) (cl : Nat) (f : Field) : Nat := getF s (cpcBase cl) f (cl % 128)
def setC (cl : Nat) (f : Field) (v : Nat) (s : State) : State := setF (cpcBase cl) f v s (cl % 128)

/-- The ceiling of R371: 1 in a thermal hold, 4 during force-minimum, else 16; L never exceeds it. -/
def showCeil (cl : Nat) (s : State) : State :=
  let c := if getC s cl Cpc.hold = 1 then 1 else if getF s pctPage Pct.forced = 1 then 4 else 16
  let s := setC cl Cpc.ceil c s
  if c < getC s cl Cpc.issueL then setC cl Cpc.issueL c s else s

def showCeils (s : State) : State := allClusters.foldl (fun s cl => showCeil cl s) s

/-- The arm message: generators that do not count record the target (R358). -/
def recordPending (target : Nat) (s : State) : State :=
  allClusters.foldl (fun s cl => if clkState s cl = 0 ∨ clkState s cl = 3 then setF (clkPage cl) Clk.pendingStep target s else s) s

/-- The step controller's own arm: target 10, S = 32; a pending upward step goes, a pending downward step is replaced (R361, R362). -/
def forceArm (s : State) : State :=
  let s := recordPending 10 (setF refPage Ref.armed 1 s)
  { s with pwr := { s.pwr with arm := some ⟨10, 32, s.now, true⟩ } }

/-- BULK_ALERT_N or FORCE_MIN_N: every ceiling is 4, and the device steps to 10. -/
def forceMinimum (s : State) : State :=
  let s := { s with pwr := { s.pwr with sawForce := true } }
  if getF s pctPage Pct.forced = 1 then s
  else forceArm (showCeils (setF pctPage Pct.forced 1 s))

/-- A bring-up has not come to S7. -/
def beforeS7 (s : State) : Bool := getF s bupPage Bup.state == 0 && decide (getF s bupPage Bup.stage < 7)

/-- FORCE_MIN_N that is still low applies (R532). -/
def forceHeld (s : State) : State := if s.pwr.forceLow then forceMinimum s else s

def bulkAlert (s : State) : State := forceMinimum (setF inpPage Inp.bulkAlert 1 s)

/-! ## Bars (R322, R323, R346) -/

/-- The code of a bar state other than GOOD. -/
def barCode : BarState → Nat
  | .low => 1
  | .overvolt => 2
  | .reversed => 3
  | .opened => 4

/-- REV_IN_N is asserted while either bar is REVERSED. -/
def revIn (s : State) : Bool := barState s 0 == 3 || barState s 1 == 3

/-- ONE_BAR and the cap follow the bars. -/
def showBars (s : State) : State := setCap (setF pctPage Pct.oneBar (if barsGood s = 1 then 1 else 0) s)

/-- BLK_ERR bits of the state a bar has taken. -/
def barErr (st : Nat) (s : State) : State :=
  if st = 2 then setErr inpPage Inp.eBarOver 0 0 s else if st = 3 then setErr inpPage Inp.eBarReversed 0 0 s else s

/-- The voltage belongs to the state: LOW below 29.0 V, OVER above 42.0 V. The table gives REVERSED a negative voltage, and OPEN also without
any, so these two take what the bar shows. -/
def barShows (st : BarState) (dv : Nat) : Bool :=
  match st with
  | .low => decide (dv < 290)
  | .overvolt => decide (420 < dv)
  | .reversed => true
  | .opened => true

/-- A bar out of GOOD takes another state, and BLK_ERR the bit of that state. -/
def barMoves (b : Nat) (st : BarState) (dv : Nat) (s : State) : State :=
  let old := barState s b
  let s := setBar b (barCode st) dv s
  if s.pwr.privetOn ∧ old ≠ barCode st then barErr (barCode st) s else s

/-- BAR_LOST: a bar takes a state other than GOOD. One that was GOOD opens its switch, and the cap of one bar is in force. -/
def barLost (b : Nat) (st : BarState) (dv : Nat) (s : State) : State :=
  if barShows st dv = false then s
  else if barState s b ≠ 0 then barMoves b st dv s
  else
    let s := setBar b (barCode st) dv s
    if s.pwr.privetOn = false then s
    else
      let s := barErr (barCode st) (setErr inpPage Inp.eBarLost 0 0 s)
      showBars (journal jEvent pgInp Inp.eBarLost 0xFF b s)

def execBarLost (b : Fin 2) (st : BarState) (decivolts : Fin 1024) (s : State) : Host.Outcome State Fault Refusal :=
  Host.Outcome.next (barLost b.val st decivolts.val s)

/-- BAR_GOOD: a bar has held 30 to 40 V for 100 ms. After POWER_FAIL, with Privet still in regulation, it is a device reset (R444). -/
def barGood (b dv : Nat) (s : State) : State :=
  if barState s b = 0 ∨ s.pwr.privetOn = false ∨ goodVolts dv = false then s
  else
    let s := setBar b 0 dv s
    if s.pwr.failing then
      let s := { s with pwr := { s.pwr with failing := false } }
      deviceReset 3 s
    else showBars s

def execBarGood (b : Fin 2) (decivolts : Fin 1024) (s : State) : Host.Outcome State Fault Refusal :=
  Host.Outcome.next (barGood b.val decivolts.val s)

/-- BAR_OVERCURRENT: the one bar in GOOD carries more than 300 A for 2 µs. -/
def execBarOvercurrent (b : Fin 2) (s : State) : Host.Outcome State Fault Refusal :=
  Host.Outcome.next (if barState s b.val = 0 ∧ barsGood s = 1 ∧ s.pwr.privetOn then bulkAlert s else s)

/-- BAR_REVERSED: a bar out of GOOD enters or leaves REVERSED. The detector works with Privet unpowered; the status bit needs Privet. -/
def execBarReversed (b : Fin 2) (st : BarState) (decivolts : Fin 1024) (s : State) : Host.Outcome State Fault Refusal :=
  Host.Outcome.next (if barState s b.val = 0 ∨ (barState s b.val = 3) = (barCode st = 3) ∨ barShows st decivolts.val = false then s
    else barMoves b.val st decivolts.val s)

/-- BAR_EXCURSION: a GOOD bar is between 40 and 42 V. -/
def execBarExcursion (b : Fin 2) (decivolts : Fin 1024) (s : State) : Host.Outcome State Fault Refusal :=
  Host.Outcome.next (if barState s b.val ≠ 0 ∨ decivolts.val ≤ 400 ∨ 420 < decivolts.val ∨ s.pwr.privetOn = false then s
    else journal jEvent pgInp Inp.eBarOver 0xFF b.val (setErr inpPage Inp.eBarOver 0 0 (setBar b.val 0 decivolts.val s)))

/-! ## Bulk cells and the rail (R325, R326) -/

def cellOk (s : State) (i : Nat) : Bool := (getF s inpPage Inp.cellOk (i / 32)).testBit (i % 32)

/-- CELL_FAULT: a cell isolates itself until the next power-on reset; it is logged, and below 68 cells the module's maximum falls. No rule gives the
log's CAUSE for a cell at runtime: a free value. -/
def cellFault (i : Nat) (s : State) : State :=
  if cellOk s i = false then s
  else
    let w := getF s inpPage Inp.cellOk (i / 32)
    let g := getF s inpPage Inp.good - 1
    let s := setF inpPage Inp.good g (setF inpPage Inp.cellOk (w - 2 ^ (i % 32)) s (i / 32))
    let s := reportCe pgInp Inp.eCellFault none 0 0 s
    let d := draw s
    let s := logDefect 4 (d.1 % 256) 0xFF i { d.2 with deadCells := insertAsc i d.2.deadCells }
    if g < 68 then
      -- While grants are received the event is journalled (R391).
      let s := if s.grants.any (fun g => !g.given) then journal jEvent pgInp Inp.eCellsLow 0xFF i s else s
      setCap (setF pctPage Pct.cellsLow 1 (setErr inpPage Inp.eCellsLow 0 0 s))
    else s

def execCellFault (cell : Fin 72) (s : State) : Host.Outcome State Fault Refusal := Host.Outcome.next (cellFault cell.val s)

/-- RAIL_LOW: below 1.70 V for 1 µs BULK_ALERT_N is asserted; below 1.60 V for 10 µs, FATAL and no bulk enable. -/
def railLow (mv : Nat) (deep : Bool) (s : State) : State :=
  if 1700 ≤ mv ∨ getF s inpPage Inp.bulkEn = 0 then s
  else
    let s := setErr inpPage Inp.eRailLow 0 0 (setF inpPage Inp.railLowBit 1 (setF inpPage Inp.rail mv s))
    let s := bulkAlert s
    if deep ∧ mv < 1600 then dropBulk (reportFatal 3 s) else s

def execRailLow (millivolts : Fin 4096) (deep : Bool) (s : State) : Host.Outcome State Fault Refusal :=
  Host.Outcome.next (railLow millivolts.val deep s)

/-! ## Springs (R327 to R337) -/

/-- A Spring in service: neither OFF, DARK nor RETIRED. -/
def sprUp (s : State) (cl : Nat) : Bool := decide (1 ≤ sprState s cl ∧ sprState s cl ≤ 3)

/-- The effective limit: the smallest of LIMIT, HWLIM and any impedance cap. -/
def showLimit (cl : Nat) (s : State) : State :=
  setF (sprPage cl) Spr.efflim (min (getF s (sprPage cl) Spr.limit) (min (getF s (sprPage cl) Spr.hwlim) (getClus s cl).impCap)) s

/-- Privet writes a cluster's LIMIT: 1 to 80 A. Fewer than two valid sensors hold it at 40 A (R386), a sense error without a spare at 20 A
(R385). -/
def setLimit (cl v : Nat) (s : State) : State :=
  let ok := getC s cl Cpc.sensorOk
  let n := ok % 2 + ok / 2 % 2 + ok / 4 % 2 + ok / 8 % 2
  let v := if n < 2 then min v 40 else v
  showLimit cl (setF (sprPage cl) Spr.limit (max 1 (min v 80)) s)

/-- The offset that a running forecast adds to a Spring's target. -/
def raised (s : State) (cl : Nat) : Nat := if getF s (sprPage cl) Spr.ffActive = 1 then (getClus s cl).fcOff else 0

/-- Privet writes VSET; the output leaves its target until the next PGOOD (R327, R328). A forecast that runs goes on adding its offset (R332, R355). -/
def setVset (cl v : Nat) (s : State) : State :=
  if getF s (sprPage cl) Spr.vcode = v then s
  else
    let s := setF (sprPage cl) Spr.vcode v s
    if sprState s cl = sprActive ∨ sprState s cl = sprRamp then setF (sprPage cl) Spr.vtgt (min 100 (v + raised s cl)) (setF (sprPage cl) Spr.pgood 0 s) else s

/-- The fused VCODE of a cluster for a step code (R355). -/
def fusedV (s : State) (cl f : Nat) : Nat := tblGet (20 + 3 * (f - 10)) s.fuses.vtab (64 * cl + f)

/-- A trip (R336, R337): the Spring is DARK with its cause, the clock PARKs, and the sixteen sites become holes. The Hedge of a bound plot sees one UC. -/
def springTrip (cl cause : Nat) (s : State) : State :=
  if sprUp s cl = false then s
  else
    let s := setErrBit (sprPage cl) Spr.eTrip (springInfo cl 0 8 cause s)
    let s := parkClock cl (springOff cl sprDark s)
    let s := putClus cl { getClus s cl with relock := false, recalAt := none } s
    let s := logDefect 1 cause 0xFF cl { s with wakeReqs := s.wakeReqs.filter (· != cl) }
    let h := hedgeOfPlot s (plotOfCluster cl)
    let s := reportUcRead (pgSpr cl) Spr.eTrip h cause none s
    (clusterSites cl).foldl (fun s p => failSite cause p s) s

/-- The code of a trip cause (R336). -/
def tripCode : TripCause → Nat
  | .ctrlFault => 1
  | .outShort => 2
  | .outOvervolt => 3
  | .inOvercurrent => 4
  | .phasesLow => 5

def execSpringTrip (cl : ClusterId) (cause : TripCause) (s : State) : Host.Outcome State Fault Refusal :=
  Host.Outcome.next (springTrip cl.val (tripCode cause) s)

/-- A phase is disabled until the next device reset (R331): PHASE_LIMIT and a lower HWLIM below 10 healthy phases, a trip at 2. -/
def phaseOff (cl ph : Nat) (s : State) : State :=
  let ok := getF s (sprPage cl) Spr.phaseOk
  if ok.testBit ph = false then s
  else
    let n := getF s (sprPage cl) Spr.healthy - 1
    let s := setF (sprPage cl) Spr.healthy n (setF (sprPage cl) Spr.phaseOk (ok - 2 ^ ph) s)
    let s := setErrBit (sprPage cl) Spr.ePhaseFault (springInfo cl 8 4 ph (addF (sprPage cl) Spr.phaseFltCnt 1 s))
    let s := putClus cl { getClus s cl with phases := min (getClus s cl).phases n } s
    if 10 ≤ n then reportCe (pgSpr cl) Spr.ePhaseFault none 0 0 s
    else if 3 ≤ n then showLimit cl (setErrBit (sprPage cl) Spr.ePhaseLimit (setF (sprPage cl) Spr.hwlim (8 * n) s))
    else springTrip cl 5 s

def execPhaseFault (cl : ClusterId) (ph : Fin 12) (s : State) : Host.Outcome State Fault Refusal :=
  Host.Outcome.next (if sprUp s cl.val then phaseOff cl.val ph.val s else s)

/-! ## Forecasts (R332) -/

/-- FORECAST_END: 20 µs after step start the offset goes. -/
def execForecastEnd (cl : ClusterId) (s : State) : Host.Outcome State Fault Refusal :=
  Host.Outcome.next (if getF s (sprPage cl.val) Spr.ffActive = 1 ∧ (getClus s cl.val).fcAt + 20 * usEdges ≤ s.now then
      setF (sprPage cl.val) Spr.vtgt (getF s (sprPage cl.val) Spr.vcode) (setF (sprPage cl.val) Spr.ffActive 0 s)
    else s)

/-- PHASE_SHED: after the window, phases that the measured load has not needed for 100 µs go, down to 2. -/
def execPhaseShed (cl : ClusterId) (needed : Fin 13) (s : State) : Host.Outcome State Fault Refusal :=
  let c := getClus s cl.val
  Host.Outcome.next (if sprState s cl.val = sprActive ∧ getF s (sprPage cl.val) Spr.ffActive = 0 ∧ c.fcAt + 100 * usEdges ≤ s.now then
      putClus cl.val { c with phases := min c.phases (max 2 needed.val) } s
    else s)

/-! ## Wakes (R330, R333, R334) -/

/-- An abort of a recalibration: the next idle slot tries again (R385). -/
def abortRecal (cl : Nat) (s : State) : State :=
  if (getClus s cl).recalAt.isSome then putClus cl { getClus s cl with recalAt := none } s else s

/-- WAKE_REQUEST: a cluster in retention is to wake. -/
def execWakeRequest (cl : ClusterId) (s : State) : Host.Outcome State Fault Refusal :=
  Host.Outcome.next (wakeCluster cl.val (abortRecal cl.val s))

/-- Clusters that share an edge with a cluster, across seams. -/
def nextClusters (cl : Nat) : List Nat :=
  (if cl % 72 = 0 then [] else [cl - 1]) ++ (if cl % 72 = 71 then [] else [cl + 1]) ++ (if cl < 72 then [] else [cl - 72]) ++
    (if 216 ≤ cl then [] else [cl + 72])

/-- The clusters of a cluster's field: 18 columns of its field row (R20). -/
def fieldClusters (cl : Nat) : List Nat := (List.range 18).map (fun i => cl / 72 * 72 + cl % 72 / 18 * 18 + i)

/-- A ramp may start: no neighbour's ramp started within 2 µs, and fewer than 8 clusters of the field ramp. -/
def mayRamp (s : State) (cl : Nat) : Bool :=
  (nextClusters cl).all (fun n => match (getClus s n).rampAt with
    | some t => decide (t + 2 * usEdges ≤ s.now)
    | none => true) &&
    decide (((fieldClusters cl).filter (fun n => sprState s n == sprRamp)).length < 8)

/-- The wake phase of a cluster: (pcol + fieldrow) mod 3 (R333). -/
def wakePhase (cl : Nat) : Nat := (cl % 72 + cl / 72) % 3

/-- The edge lies within 5 edges of the start of a window of the cluster's phase. The cycle of three windows of 210 edges runs free from device reset, at
a point the rule does not define. -/
def inWindow (s : State) (cl : Nat) : Bool :=
  decide ((s.now - s.resetEdge + Config.wakeCycle s.resetEdge + 635 - 210 * wakePhase cl) % 630 ≤ 10)

/-- The VCODE Privet gives a cluster that wakes: that of the step in force, or of an upward step that is armed (R328). -/
def wakeCode (s : State) (cl : Nat) : Nat :=
  if s.pwr.away.isSome then getF s (sprPage cl) Spr.vcode
  else fusedV s cl (match s.pwr.arm with
    | some a => max a.target (stepCode s)
    | none => stepCode s)

/-- WAKE_WINDOW: at a window of its phase the wake sequencer starts the ramp of a cluster that is to wake, to its voltage for the step in force. -/
def wakeWindow (cl : Nat) (s : State) : State :=
  if cl ∉ s.wakeReqs ∨ sprState s cl ≠ sprRetention ∨ inWindow s cl = false ∨ mayRamp s cl = false then s
  else
    let v := wakeCode s cl
    let s := putClus cl { getClus s cl with rampAt := some s.now, standby := true, lockTry := 0, clkAt := s.now } s
    let s := setF (sprPage cl) Spr.vtgt v (setF (sprPage cl) Spr.vcode v (setF (sprPage cl) Spr.state sprRamp (setF (sprPage cl) Spr.pgood 0 s)))
    { s with wakeReqs := s.wakeReqs.filter (· != cl) }

def execWakeWindow (cl : ClusterId) (s : State) : Host.Outcome State Fault Refusal := Host.Outcome.next (wakeWindow cl.val s)

/-- PGOOD: the output is within 10 mV of its target; a ramp ends in ACTIVE, counted where it was a wake, and a forecast that waited applies. -/
def pgood (cl : Nat) (s : State) : State :=
  if sprState s cl = sprRamp then
    let c := getClus s cl
    let s := setF (sprPage cl) Spr.state sprActive (setF (sprPage cl) Spr.pgood 1 s)
    let s := if c.standby then addF (sprPage cl) Spr.wakeCnt 1 s else s
    if c.fcWaits then forecastPhases cl s else s
  else if sprState s cl = sprActive then setF (sprPage cl) Spr.pgood 1 s
  else s

def execPgood (cl : ClusterId) (s : State) : Host.Outcome State Fault Refusal := Host.Outcome.next (pgood cl.val s)

/-! ## Impedance (R335) -/

/-- A list in ascending order, an element inserted. -/
def insertSorted (x : Nat) : List Nat → List Nat
  | [] => [x]
  | y :: t => if x ≤ y then x :: y :: t else y :: insertSorted x t

/-- The median of a list: the mean of the middle two where their number is even. -/
def median (l : List Nat) : Nat :=
  let v := l.foldr insertSorted []
  let n := v.length
  if n % 2 = 1 then v.getD (n / 2) 0 else (v.getD (n / 2 - 1) 0 + v.getD (n / 2) 0) / 2

/-- Plans the retirement of a whole cluster, with cause PLANNED. -/
def planCluster (cl : Nat) (s : State) : State := (clusterSites cl).foldl (fun s p => planRetire p 0x06 s) s

/-- Every estimate of the last 10 s is high, and they are at least 100. -/
def warned (now : Nat) (c : Cluster) : Bool :=
  decide (c.lowAt + 10 * secEdges ≤ now) && decide (100 ≤ (c.highs.filter (fun t => decide (now ≤ t + 10 * secEdges))).length)

/-- IMPEDANCE_ESTIMATE: a valid estimate in µΩ; the median of the last 16, the warning after 10 s at 1.40 × RBASE with 100 estimates, and the planned
retirement at 2.00. -/
def impedance (cl r : Nat) (s : State) : State :=
  let rb := getF s (sprPage cl) Spr.rbase
  if sprState s cl ≠ sprActive ∨ rb = 0 then s
  else
    let c := getClus s cl
    let ests := (r :: c.ests).take 16
    let m := median ests
    let high : Bool := decide (rb * 14 ≤ r * 10)
    let c := if high then { c with ests := ests, highs := (s.now :: c.highs).take 100 } else { c with ests := ests, highs := [], lowAt := s.now }
    let ratio := min 4095 (m * 256 / rb)
    let s := setF (sprPage cl) Spr.ratio ratio (setF (sprPage cl) Spr.rpath (min m 65535) (putClus cl c s))
    let s := if warned s.now c ∧ getF s (sprPage cl) Spr.impWarn = 0 then
        let top := min (getF s (sprPage cl) Spr.hwlim) c.impCap
        let s := putClus cl { getClus s cl with impCap := top * 3 / 4 } (setF (sprPage cl) Spr.impWarn 1 s)
        journal jEvent (pgSpr cl) Spr.eImpWarn 0xFF ratio (showLimit cl (setErrBit (sprPage cl) Spr.eImpWarn s))
      else s
    if 512 ≤ ratio ∧ getF s (sprPage cl) Spr.impRetire = 0 then
      planCluster cl (setErrBit (sprPage cl) Spr.eImpRetire (setF (sprPage cl) Spr.impRetire 1 s))
    else s

def execImpedanceEstimate (cl : ClusterId) (microohms : Word16) (s : State) : Host.Outcome State Fault Refusal :=
  Host.Outcome.next (impedance cl.val microohms.toNat s)

end Sys2Proof.Machine
end

