-- ==== Sys2Proof/Machine/Clock.lean ====
section
/-!
DEFINITION. The reference, the cluster clock generators, synchronised steps and droops, by R347 to R367.
-/
namespace Sys2Proof.Machine

/-! ## The reference (R348 to R350) -/

/-- OSCILLATOR_LOST: the reference switches to the other oscillator, or, with both LOST, to the ring oscillator, which is FATAL. -/
def oscillatorLost (o : Nat) (s : State) : State :=
  let lost := fun (s : State) (i : Nat) => getF s refPage (if i = 0 then Ref.osc0Lost else Ref.osc1Lost)
  if lost s o = 1 ∨ s.pwr.privetOn = false then s
  else
    let s := setF refPage (if o = 0 then Ref.osc0Lost else Ref.osc1Lost) 1 s
    if lost s (1 - o) = 1 then
      reportFatal 2 (journalEvent pgRef 0xFF o (setF refPage Ref.source 2 s))
    else if getF s refPage Ref.source = o then journalEvent pgRef 0xFF o (setF refPage Ref.source (1 - o) s)
    else s

def execOscillatorLost (o : Fin 2) (s : State) : Host.Outcome State Fault Refusal := Host.Outcome.next (oscillatorLost o.val s)

/-! ## Generator states (R351, R352) -/

/-- The cores that the sites of a cluster hold. -/
def clusterCores (s : State) (cl : Nat) : List Nat := (clusterSites cl).filterMap (coreOfSite s)

/-- A packet in the fabric stands at a router of the cluster. -/
def packetAt (s : State) (cl : Nat) : Bool :=
  s.packets.any (fun p => clusterOfSite (routingSite s (coreAt p.row p.col)) == cl)

/-- A cluster is idle (R352): no core in RUN, DONE or TEST, no flit in its routers, no scrub or shift in its plot, nothing that asked it to wake. -/
def clusterIdle (s : State) (cl : Nat) : Bool :=
  let cores := clusterCores s cl
  let busy := fun c => match (getCore s c).mode with
    | .run => true
    | .done => true
    | .test => true
    | _ => false
  let plotBusy := match hedgeOfPlot s (plotOfCluster cl) with
    | some h => (getHedge s h).state == .scrubbing || (tblFind h s.shifts).isSome
    | none => false
  !cores.any busy && !packetAt s cl && !plotBusy && decide (cl ∉ s.wakeReqs) &&
    cores.all (fun c => (List.range 40).all (fun i => (tblGet [] s.flits (40 * c + i)).isEmpty))

/-- Before the clock of a cluster stops, its routers send a heartbeat marked QUIET (R415). -/
def quiet (cl : Nat) (s : State) : State :=
  { s with hbQuiet := (clusterSites cl).foldl (fun l p => insertAsc p l) s.hbQuiet }

/-- CLOCK_GATE: idle for GATE_US. -/
def clockGate (cl : Nat) (s : State) : State :=
  if clkState s cl = 1 ∧ clusterIdle s cl ∧ (getClus s cl).busyAt + getF s (clkPage cl) Clk.gateUs * usEdges ≤ s.now then
    quiet cl (putClus cl { getClus s cl with clkAt := s.now } (setF (clkPage cl) Clk.state 2 s))
  else s

def execClockGate (cl : ClusterId) (s : State) : Host.Outcome State Fault Refusal := Host.Outcome.next (clockGate cl.val s)

/-- CLOCK_STANDBY: gated for STANDBY_MS. The Spring goes to RETENTION, 0.45 V on two phases; L returns to 16 under its ceiling (R329, R370). -/
def clockStandby (cl : Nat) (s : State) : State :=
  if clkState s cl = 2 ∧ clusterIdle s cl ∧ sprState s cl = sprActive ∧
      (getClus s cl).clkAt + getF s (clkPage cl) Clk.standbyMs * msEdges ≤ s.now then
    let s := setF (clkPage cl) Clk.locked 0 (setF (clkPage cl) Clk.state 3 s)
    let s := putClus cl { getClus s cl with clkAt := s.now, phases := 2, okRun := 0 } s
    let s := setF (sprPage cl) Spr.vtgt 0 (setF (sprPage cl) Spr.ffActive 0 (setF (sprPage cl) Spr.state sprRetention s))
    showCeil cl (setC cl Cpc.issueL 16 s)
  else s

def execClockStandby (cl : ClusterId) (s : State) : Host.Outcome State Fault Refusal := Host.Outcome.next (clockStandby cl.val s)

/-- CLOCK_RESUME: an activity reaches a gated cluster. -/
def clockResume (cl : Nat) (s : State) : State :=
  if clkState s cl = 2 then
    touch cl { abortRecal cl (setF (clkPage cl) Clk.state 1 s) with wakeReqs := s.wakeReqs.filter (· != cl) }
  else s

def execClockResume (cl : ClusterId) (s : State) : Host.Outcome State Fault Refusal := Host.Outcome.next (clockResume cl.val s)

/-- A lock is under way: from STANDBY once the Spring is ACTIVE with PGOOD, or from PARK after a lock loss. -/
def locking (s : State) (cl : Nat) : Bool :=
  sprState s cl == sprActive && getF s (sprPage cl) Spr.pgood == 1 && (clkState s cl == 3 || (clkState s cl == 0 && (getClus s cl).relock))

/-- LOCK: the generator locks at the step in force and enters RUN (R351, R358). -/
def clockLock (cl : Nat) (s : State) : State :=
  if locking s cl then
    let s := if clkState s cl = 3 then addF (clkPage cl) Clk.wakeCnt 1 s else s
    let s := setF (clkPage cl) Clk.pendingStep 0 (setF (clkPage cl) Clk.step (stepCode s)
      (setF (clkPage cl) Clk.locked 1 (setF (clkPage cl) Clk.state 1 s)))
    let s := putClus cl { getClus s cl with standby := false, relock := false, lockTry := 0, clkAt := s.now } s
    touch cl { s with wakeReqs := s.wakeReqs.filter (· != cl) }
  else s

def execClockLock (cl : ClusterId) (s : State) : Host.Outcome State Fault Refusal := Host.Outcome.next (clockLock cl.val s)

/-- A lock is lost, or a switch missed: the output stops and the generator relocks from PARK. UC against a RUNNING Hedge, else CE; no site is charged (R367,
R431). -/
def loseLock (cl bit : Nat) (s : State) : State :=
  let s := parkClock cl (setErr (clkPage cl) bit 0 0 s)
  let s := putClus cl { getClus s cl with relock := true, lockTry := 0 } s
  match hedgeOfPlot s (plotOfCluster cl) with
  | some h =>
    if (getHedge s h).state = .running then reportUc (pgClk cl) bit (some h) (((clusterCores s cl)).getD 0 0) none false s
    else reportCe (pgClk cl) bit none 0 0 s
  | none => reportCe (pgClk cl) bit none 0 0 s

/-- LOCK_LOST in RUN or GATED. -/
def execLockLost (cl : ClusterId) (s : State) : Host.Outcome State Fault Refusal :=
  Host.Outcome.next (if clkState s cl.val = 1 ∨ clkState s cl.val = 2 then loseLock cl.val Clk.eLockLost s else s)

/-- LOCK_FAIL: a lock takes more than twice its bound; the second failure trips the Spring with CTRL_FAULT. -/
def lockFail (cl : Nat) (s : State) : State :=
  if locking s cl = false then s
  else
    let n := (getClus s cl).lockTry + 1
    let s := putClus cl { getClus s cl with lockTry := n } (setErr (clkPage cl) Clk.eLockFail 0 0 s)
    if 2 ≤ n then springTrip cl 1 s else s

def execLockFail (cl : ClusterId) (s : State) : Host.Outcome State Fault Refusal := Host.Outcome.next (lockFail cl.val s)

/-! ## Steps (R354 to R362) -/

/-- Springs in service whose clusters are ACTIVE or in RAMP. -/
def activeSprings (s : State) : List Nat := allClusters.filter (fun cl => sprState s cl == sprActive || sprState s cl == sprRamp)

/-- Privet sets VSET of every active cluster from its fused table for a step code. -/
def setVsets (f : Nat) (s : State) : State := (activeSprings s).foldl (fun s cl => setVset cl (fusedV s cl f) s) s

/-- A refused or cancelled upward step. The eighth in a row is journalled, and the step is held for 100 ms (R360). -/
def refuseStep (s : State) : State :=
  let s := addF refPage Ref.refuseCnt 1 (setF refPage Ref.refused 1 s)
  let n := s.pwr.refusals + 1
  if 8 ≤ n then journalEvent pgRef 0xFF n { s with pwr := { s.pwr with refusals := 0, heldTo := s.now + 100 * msEdges } }
  else { s with pwr := { s.pwr with refusals := n } }

/-- A droop has been reported in the last 256 edges. -/
def recentDroop (s : State) : Bool := match s.pwr.droopAt with
  | some t => decide (s.now ≤ t + 256)
  | none => false

/-- GO: Privet writes STEP_CTL (R356 steps 1 to 3). An upward arm waits for its VSETs and PGOOD; a target above the fused maximum, below 10, an upward arm after a droop, and any
arm on the ring oscillator are refused. One arm runs at a time. -/
def stepGo (target count : Nat) (s : State) : State :=
  let n := max 32 (min count 1023)
  let up : Bool := decide (stepCode s < target)
  let ready := (activeSprings s).all (fun cl => decide (fusedV s cl target ≤ getF s (sprPage cl) Spr.vcode) && getF s (sprPage cl) Spr.pgood == 1)
  if s.pwr.privetOn = false ∨ s.pwr.away.isSome ∨ s.pwr.arm.isSome ∨ s.now < s.pwr.heldTo ∨ (up ∧ (ready = false ∨ getF s pctPage Pct.forced = 1)) then s
  else
    let s := setF refPage Ref.armCount n (setF refPage Ref.target target s)
    if fusedStep s < target ∨ target < 10 ∨ getF s refPage Ref.source = 2 then addF refPage Ref.refuseCnt 1 (setF refPage Ref.refused 1 s)
    else if up ∧ recentDroop s then refuseStep s
    else
      let s := setF refPage Ref.armed 1 s
      let s := if up then setF refPage Ref.refused 0 s else s
      recordPending target { s with pwr := { s.pwr with arm := some ⟨target, n, s.now, false⟩ } }

def execStepGo (target : Fin 64) (count : Fin 1024) (s : State) : Host.Outcome State Fault Refusal :=
  Host.Outcome.next (stepGo target.val count.val s)

/-- A generator that counts switches its divider. -/
def switchOne (target : Nat) (missed : List Nat) (cl : Nat) (s : State) : State :=
  if (clkState s cl = 1 ∨ clkState s cl = 2) ∧ cl ∉ missed then setF (clkPage cl) Clk.step target s else s

def switchAll (target : Nat) (missed : List Nat) (s : State) : State :=
  allClusters.foldl (fun s cl => switchOne target missed cl s) s

/-- STEP_SWITCH at the edge E = A + S: every running generator switches but those that miss; after a downward step Privet lowers VSET. -/
def stepSwitch (missed : List Nat) (s : State) : State :=
  match s.pwr.arm with
  | none => s
  | some a =>
    if s.now < a.sent + a.count then s
    else
      let down : Bool := decide (a.target < stepCode s)
      let s := setF refPage Ref.armed 0 (setF refPage Ref.forced (if a.forced then 1 else 0) (setF refPage Ref.step a.target s))
      let s := switchAll a.target missed s
      let n := if down then s.pwr.refusals else 0
      let s : State := { s with pwr := { s.pwr with arm := none, switched := some s.now, refusals := n } }
      if down && s.pwr.away.isNone then setVsets a.target s else s

def execStepSwitch (missed : List ClusterId) (s : State) : Host.Outcome State Fault Refusal :=
  Host.Outcome.next (stepSwitch (missed.map (fun c => c.val)) s)

/-- SWITCH_MISS: the check at E + 8 finds a generator on another step; it is handled as a lock loss. -/
def switchMiss (cl : Nat) (s : State) : State :=
  match s.pwr.switched with
  | none => s
  | some e =>
    if e + 8 ≤ s.now ∧ (clkState s cl = 1 ∨ clkState s cl = 2) ∧ getF s (clkPage cl) Clk.step ≠ stepCode s then loseLock cl Clk.eSwitchMiss s else s

def execSwitchMiss (cl : ClusterId) (s : State) : Host.Outcome State Fault Refusal := Host.Outcome.next (switchMiss cl.val s)

/-! ## Droops (R359 to R361) -/

/-- The step controller hears of a firing: an upward arm is cancelled up to E − 16. -/
def droopReport (s : State) : State :=
  let s := { s with pwr := { s.pwr with droopAt := some s.now } }
  match s.pwr.arm with
  | none => s
  | some a =>
    if stepCode s < a.target ∧ s.now + 16 < a.sent + a.count then
      let s := setF refPage Ref.armed 0 { s with pwr := { s.pwr with arm := none } }
      refuseStep (recordPending 0 s)
    else s

/-- DROOP_DETECT: a detector of a clocked cluster, or of an engine half, fires. -/
def droopDetect (src : DroopSource) (s : State) : State :=
  match src with
  | .half _ => if s.pwr.pwrGood then droopReport s else s
  | .cluster cl det =>
    if clkState s cl.val ≠ 1 then s
    else
      let s := orF (clkPage cl.val) Clk.det (2 ^ det.val) (setF (clkPage cl.val) Clk.stretching 1 s)
      let c := getClus s cl.val
      let s := putClus cl.val { c with droopAt := some (c.droopAt.getD s.now) } (addF (clkPage cl.val) Clk.droopCnt 1 s)
      droopReport s

def execDroopDetect (src : DroopSource) (s : State) : Host.Outcome State Fault Refusal := Host.Outcome.next (droopDetect src s)

/-- A link whose ends have different clocks: the sender's, the receiver's, the receiving site and its input. Clocks 288 and 289 are those of the west and the
east engine half, 290 that of the Mere channels. -/
abbrev ClockLink := Nat × Nat × Nat × Nat

/-- The links between the routers of a cluster and those of other clocked clusters (R166, R169). -/
def siteLinks (s : State) (cl : Nat) : List ClockLink :=
  let top := 16 * (cl / 72)
  let left := 8 * (cl % 72 / 9)
  let rows := (List.range 17).filterMap (fun i => if top + i = 0 then none else some (top + i - 1))
  let cols := (List.range 9).filterMap (fun i => if left + i = 0 then none else some (left + i - 1))
  let both := fun (a b : Nat) => pathLinks a ((linkPath s a b).getD []) ++ pathLinks b ((linkPath s b a).getD [])
  let all := rows.flatMap (fun r => cols.flatMap (fun c =>
    let here := routingSite s (coreAt r c)
    (if c < 63 then both here (routingSite s (coreAt r (c + 1))) else []) ++ (if r < 63 then both here (routingSite s (coreAt (r + 1) c)) else [])))
  (all.eraseDups.map (fun e => (clusterOfSite e.1, clusterOfSite e.2.1, e.2.1, e.2.2))).filter (fun e =>
    e.1 != e.2.1 && ((e.1 == cl && clkState s e.2.1 == 1) || (e.2.1 == cl && clkState s e.1 == 1)))

/-- The links from edge routers into a cluster (R26, R169, R356). A west or east edge router runs on its half's clock, a north or south one on that of the Mere
channels it serves (the clock domains of 12_clocking.md). -/
def edgeLinks (s : State) (cl : Nat) : List ClockLink :=
  let rows := (List.range 16).map (fun i => 16 * (cl / 72) + i)
  let west := (rows.filter (fun r => !edgeFailed s (.west r))).map (fun r => (288, routingSite s (coreAt r 0), 3))
  let east := (rows.filter (fun r => !edgeFailed s (.east r))).map (fun r => (289, routingSite s (coreAt r 63), 2))
  let pack := fun (row port : Nat) => (List.range 24).filterMap (fun k => (packageSite s row k).map (fun p => (290, p, port)))
  ((west ++ east ++ pack 0 0 ++ pack 63 1).filter (fun e => clusterOfSite e.2.1 == cl)).map (fun e => (e.1, cl, e.2.1, e.2.2))

/-- The key of a pair of clocks. -/
def slipKey (a b : Nat) : Nat := 512 * min a b + max a b

/-- Half cycles of phase difference between two clusters that have made no net slip yet, after `cl` stretched some periods: the net slips
they make now, and the half cycle left over, positive where the lower cluster is behind (R169). -/
def netSlips (s : State) (cl other periods : Nat) : Nat × Int :=
  let r := tblGet 0 s.halfSlips (slipKey cl other)
  let t : Int := if cl < other then r + periods else r - periods
  (t.natAbs / 2, if t < 0 then -((t.natAbs % 2 : Nat) : Int) else ((t.natAbs % 2 : Nat) : Int))

/-- A link that sees net slips while one cluster falls behind: counted at the receiving router, whose buffer fills where the receiver is behind and empties
where the sender is (R169, R191, R485). -/
def slipLink (behind n : Nat) (e : ClockLink) (s : State) : State :=
  if n = 0 then s
  else
    let s := moveSkid e.2.2.1 e.2.2.2 e.1 (if e.2.1 = behind then (n : Int) else -(n : Int)) (addF (rtrPage e.2.2.1) Rtr.slipCnt n s)
    match coreOfSite s e.2.2.1 with
    | some c => coreEv c 0x2B n s
    | none => s

/-- The net slips that a cluster's stretched periods make on its links. -/
def slipLinks (cl periods : Nat) (s : State) : State :=
  let links := siteLinks s cl ++ edgeLinks s cl
  let other := fun (e : ClockLink) => if e.1 = cl then e.2.1 else e.1
  let t := links.foldl (fun t e => slipLink cl (netSlips s cl (other e) periods).1 e t) s
  (links.map other).eraseDups.foldl (fun t o =>
    { t with halfSlips := tblPut 0 t.halfSlips (slipKey cl o) (netSlips s cl o periods).2 }) t

/-- DROOP_DEASSERT: every detector of a cluster is quiet again; the periods it stretched are counted. -/
def droopDeassert (cl periods : Nat) (s : State) : State :=
  if getF s (clkPage cl) Clk.stretching = 0 then s
  else
    let s := slipLinks cl periods s
    let s := addF (clkPage cl) Clk.stretchCnt periods (setF (clkPage cl) Clk.det 0 (setF (clkPage cl) Clk.stretching 0 s))
    putClus cl { getClus s cl with droopAt := none } (setC cl Cpc.droopLong 0 s)

def execDroopDeassert (cl : ClusterId) (periods : Word32) (s : State) : Host.Outcome State Fault Refusal :=
  Host.Outcome.next (droopDeassert cl.val periods.toNat s)

end Sys2Proof.Machine
end

