-- ==== Sys2Proof/Machine/Steering.lean ====
section
/-!
DEFINITION. Power classes and steering, by R377 to R381 and R466: the epoch, reports, grants and their messages on management connections.
-/
namespace Sys2Proof.Machine

/-! ## MGMT messages (R466) -/

/-- MKIND codes. -/
def mkRequest : Nat := 0
def mkResponse : Nat := 1
def mkSteer : Nat := 2
def mkTelemetry : Nat := 3

/-- The 32-byte MGMT header. -/
def mgmtHeader (mkind xid total off mcount : Nat) : List Byte :=
  leBytes 1 mkind ++ leBytes 3 0 ++ leBytes 4 xid ++ leBytes 4 total ++ leBytes 4 off ++ leBytes 8 mcount ++ leBytes 8 0

/-- A block cut into pieces of at most n bytes, with their offsets. -/
def pieces (n : Nat) (block : List Byte) : List (Nat × List Byte) :=
  (List.range ((block.length + n - 1) / n)).map (fun i => (i * n, (block.drop (i * n)).take n))

/-- A block leaves in fragments of at most DATA_MAX bytes, in ascending OFFSET; the smaller DATA_MAX of the ports holds on every path. -/
def sendBlock (k mkind xid mcount : Nat) (block : List Byte) (s : State) : State :=
  let n := min (dataMax s 0) (dataMax s 2)
  (pieces n block).foldl (fun s e =>
    sendMsg k { type := tMgmt, flags := 0, dst := 0, src := k, body := mgmtHeader mkind xid block.length e.1 mcount ++ e.2 } s) s

/-! ## Groups and members (R377) -/

def putTab (g : Nat) (t : SteerTab) (s : State) : State := { s with flash := { s.flash with steer := tblInsert g t s.flash.steer } }

/-- Hedges that take part in the exchange: STEERED, with a member table for their group. -/
def steeredHedges (s : State) : List Nat :=
  (List.range 32).filter (fun h => let k := getHedge s h; k.state != .unbound && k.steered && (getTab s k.sgroup).isSome)

/-- The Hedge of a group: the lowest number where several name it. -/
def groupHedge (s : State) (g : Nat) : Option Nat := (steeredHedges s).find? (fun h => (getHedge s h).sgroup == g)

/-- The management connection to a member. -/
def memberConn (s : State) (addrs : List Nat) : Option Nat :=
  (s.conns.find? (fun e => e.2.kind == 2 && e.2.state != .free && e.2.addrs.any (fun a => decide (a ∈ addrs)))).map (fun e => e.1)

/-! ## Budgets (R379) -/

def receivedOf (s : State) (h : Nat) : Nat := (s.grants.filter (fun g => !g.given && g.hedge == h)).foldl (fun n g => n + g.watts) 0
def givenOf (s : State) (h : Nat) : Nat := (s.grants.filter (fun g => g.given && g.hedge == h)).foldl (fun n g => n + g.watts) 0

/-- NET, STEER_ACTIVE and C_eff follow the grants. -/
def showGrants (h : Nat) (s : State) : State :=
  let net : Int := (receivedOf s h : Int) - (givenOf s h : Int)
  let s := setHb h Pct.hbNet (unsignedOf 16 net) s
  setCap (setF pctPage Pct.steerActive (if s.grants.isEmpty then 0 else 1) s)

/-- A change of a Hedge's budget in force by some watts. -/
def moveBudget (h : Nat) (d : Int) (s : State) : State := setHb h Pct.hbBudget (((hb s h Pct.hbBudget : Nat) : Int) + d).toNat s

def addGrant (g : Grant) (s : State) : State :=
  let s := { s with grants := s.grants ++ [g] }
  showGrants g.hedge (moveBudget g.hedge (if g.given then -(g.watts : Int) else (g.watts : Int)) s)

def dropGrant (g : Grant) (s : State) : State :=
  let s := { s with grants := s.grants.filter (fun x => decide (x ≠ g)) }
  showGrants g.hedge (moveBudget g.hedge (if g.given then (g.watts : Int) else -(g.watts : Int)) s)

/-! ## Messages (R381) -/

/-- The body of a steering message. -/
def steerBody (kind group own dst epoch wait flags ident watts base net : Nat) : List Byte :=
  leBytes 1 kind ++ leBytes 1 group ++ leBytes 1 own ++ leBytes 1 dst ++ leBytes 4 epoch ++ leBytes 2 wait ++ leBytes 2 flags ++
    leBytes 4 ident ++ leBytes 4 watts ++ leBytes 4 base ++ leBytes 4 net ++ leBytes 4 0

/-- Sends a steering message to a member of a group; without a connection Privet opens one. -/
def sendSteer (g h dst kind wait flags ident watts : Nat) (s : State) : State :=
  match getTab s g with
  | none => s
  | some t =>
    let addrs := t.members.getD dst []
    match memberConn s addrs with
    | none => (openConn 2 addrs s).2
    | some k =>
      let net : Int := (receivedOf s h : Int) - (givenOf s h : Int)
      let body := steerBody kind g t.own dst (s.pwr.epoch % 2 ^ 32) wait flags ident watts (hb s h Pct.hbBase) (unsignedOf 32 net)
      let head := mgmtHeader mkSteer 0 80 0 t.next
      let s := putTab g { t with next := t.next + 1 } s
      sendMsg k { type := tMgmt, flags := 0, dst := 0, src := k, body := head ++ body ++ hmac384 t.key (head ++ body) } s

def kReport : Nat := 0
def kGrant : Nat := 1
def kAccept : Nat := 2
def kRefuse : Nat := 3
def kReturn : Nat := 4

/-- A receiver gives a grant back: its budget falls first, then RETURN goes out. -/
def returnGrant (g : Grant) (s : State) : State := sendSteer g.group g.hedge g.peer kReturn 0 0 g.ident g.watts (dropGrant g s)

/-- Received grants that go back, newest first, until the rest fits the limit of 10 % of B_h and the fused maximum (R379 rule 4). -/
def trimReceived (h : Nat) : Nat → State → State
  | 0, s => s
  | n + 1, s =>
    let mine := s.grants.filter (fun g => !g.given && g.hedge == h)
    match mine.getLast? with
    | none => s
    | some g =>
      let k := getHedge s h
      if k.state = .unbound ∨ k.steered = false ∨ hb s h Pct.hbBase < 10 * receivedOf s h ∨ fusedMax s < ((capNow s : Int) + netWatts s).toNat then
        trimReceived h n (returnGrant g s)
      else s

/-- Received grants that the limits in force no longer allow go back at once (R379 rule 4, R391). -/
def trimGrants (s : State) : State :=
  if s.grants.isEmpty ∨ s.pwr.away.isSome then s else (List.range 32).foldl (fun s h => trimReceived h s.grants.length s) s

/-! ## The epoch (R378, R379) -/

/-- W of a Hedge in the epoch that ends, in 1/65,536, saturating. -/
def waitOf (s : State) (h : Nat) : Nat := min 65535 (tblGet 0 s.waited h * 65536 / 500000)

/-- Fresh reports of a group: for 15 ms after their arrival. -/
def freshReports (s : State) (g : Nat) : List Report := s.reports.filter (fun r => r.group == g && decide (s.now < r.at_ + 15 * msEdges))

/-- W_min over the fresh reports and the device's own. -/
def minWait (s : State) (g own : Nat) : Nat := (freshReports s g).foldl (fun m r => min m r.wait) own

/-- No force-minimum and no thermal hold: what eligibility asks beside being critical. -/
def mayReceive (s : State) : Bool := getF s pctPage Pct.forced == 0 && allClusters.all (fun cl => getC s cl Cpc.hold == 0)

/-- The critical member with the lowest NET to BASE, ties to the lowest index. -/
def pickReceiver (s : State) (g own wmin : Nat) : Option Report :=
  let crit := (freshReports s g).filter (fun r => r.from' != own && decide (100 * r.wait ≤ 100 * wmin + 2 * 65536))
  crit.foldl (fun b r => match b with
    | none => some r
    | some x =>
      let l : Int := r.net * (x.base : Int)
      let m : Int := x.net * (r.base : Int)
      if l < m ∨ (l = m ∧ r.from' < x.from') then some r else some x) none

/-- A donor's new grant: 1 % of B_h to the chosen member while its given total stays within 10 % (rule 1). -/
def makeGrant (h w wmin : Nat) (s : State) : State :=
  let g := (getHedge s h).sgroup
  match getTab s g with
  | none => s
  | some t =>
    let base := hb s h Pct.hbBase
    let watts := base / 100
    if 100 * w < 100 * wmin + 5 * 65536 ∨ watts = 0 ∨ base < 10 * (givenOf s h + watts) then s
    else
      match pickReceiver s g t.own wmin with
      | none => s
      | some r =>
        let id := s.nextGrant
        let s := { s with nextGrant := id + 1 }
        let s := addF pctPage Pct.grantCnt 1 (addGrant ⟨true, h, g, r.from', id % 2 ^ 32, watts, s.now, s.now⟩ s)
        sendSteer g h r.from' kGrant 0 0 (id % 2 ^ 32) watts s

/-- RENEW for each live grant given, unless no ACCEPT has come for 20 ms (rules 3 and 6). -/
def renewAll (h : Nat) (s : State) : State :=
  (s.grants.filter (fun g => g.given && g.hedge == h && decide (s.now < g.acked + 20 * msEdges))).foldl (fun s g =>
    let s := { s with grants := s.grants.map (fun x => if x = g then { x with renewed := s.now } else x) }
    sendSteer g.group h g.peer kGrant 0 1 g.ident g.watts s) s

/-- One Hedge at the end of an epoch. -/
def endEpochOf (s : State) (h : Nat) : State :=
  let g := (getHedge s h).sgroup
  match getTab s g with
  | none => s
  | some t =>
    let w := waitOf s h
    let wmin := minWait s g w
    let crit : Bool := decide (100 * w ≤ 100 * wmin + 2 * 65536)
    let elig := crit && mayReceive s
    let s := setHb h Pct.hbEligible (if elig then 1 else 0) s
    let flags := (if crit then 2 else 0) + (if elig then 4 else 0)
    let others := (List.range t.members.length).filter (fun m => m != t.own)
    let s := others.foldl (fun s m => sendSteer g h m kReport w flags 0 0 s) s
    let s := renewAll h s
    let s := makeGrant h w wmin s
    let dry := if elig then 0 else tblGet 0 s.dry h + 1
    let s := { s with dry := tblPut 0 s.dry h dry }
    if 2 ≤ dry then
      match (s.grants.filter (fun x => !x.given && x.hedge == h)).getLast? with
      | some x => returnGrant x s
      | none => s
    else s

/-- EPOCH_END: 500,000 reference edges after the last. -/
def epochEnd (s : State) : State :=
  if s.now < s.pwr.epochAt + 500000 ∨ s.pwr.away.isSome ∨ s.pwr.privetOn = false then s
  else
    let s := { s with pwr := { s.pwr with epoch := s.pwr.epoch + 1, epochAt := s.now } }
    let s := (steeredHedges s).foldl endEpochOf s
    { s with waited := [] }

def execEpochEnd (s : State) : Host.Outcome State Fault Refusal := Host.Outcome.next (epochEnd s)

/-! ## Arrivals (R378 to R381, R466) -/

/-- The first message of a connection's inbox, if it is a steering message of a kind; it leaves the inbox. -/
def takeSteer (k kind : Nat) (s : State) : Option Wire × State :=
  let c := getConn s k
  match c.inbox with
  | [] => (none, s)
  | w :: rest =>
    if s.pwr.away.isSome ∨ w.type ≠ tMgmt ∨ bNat w.body 0 1 ≠ mkSteer ∨ bNat w.body 32 1 ≠ kind then (none, s)
    else (some w, putConn k { c with inbox := rest } s)

/-- The checks of R466: HMAC under the group key, a known group, a counter not used before. Answers the Hedge and the sender. -/
def checkSteer (w : Wire) (s : State) : Option (Nat × Nat) × State :=
  let g := bNat w.body 33 1
  let from' := bNat w.body 34 1
  let drop := fun (s : State) => (none, addF secPage Sec.steerDropCnt 1 s)
  match getTab s g with
  | none => drop s
  | some t =>
    if hmac384 t.key (w.body.take 64) ≠ (w.body.drop 64).take 48 then drop (setErr secPage Sec.eBadHmac 0 0 s)
    else
      let n := bNat w.body 0x10 8
      if n ≤ tblGet 0 t.seen from' then drop s
      else
        let s := putTab g { t with seen := tblPut 0 t.seen from' n } s
        match groupHedge s g with
        | some h => (some (h, from'), s)
        | none => (none, s)

/-- A steering message of one kind arrives on a connection; `act` gives its effect. -/
def onSteer (k kind : Nat) (act : Nat → Nat → List Byte → State → State) (s : State) : State :=
  let a := takeSteer k kind s
  match a.1 with
  | none => a.2
  | some w =>
    let b := checkSteer w a.2
    match b.1 with
    | none => b.2
    | some (h, from') => act h from' (w.body.drop 32) b.2

/-- REPORT: replaces the sender's last. -/
def takeReport (h from' : Nat) (b : List Byte) (s : State) : State :=
  let g := (getHedge s h).sgroup
  let r : Report := { group := g, from' := from', wait := bNat b 8 2, base := bNat b 0x14 4, net := signedOf 32 (bNat b 0x18 4),
                      eligible := (bNat b 0xA 2).testBit 2, at_ := s.now }
  { s with reports := s.reports.filter (fun x => !(x.group == g && x.from' == from')) ++ [r] }

def execSteerReport (k : ConnId) (s : State) : Host.Outcome State Fault Refusal := Host.Outcome.next (onSteer k.val kReport takeReport s)

/-- GRANT: a RENEW of a grant held is answered with ACCEPT. A new grant is accepted by an eligible device within its limits, and else refused (rules 2 and
3). -/
def takeGrant (h from' : Nat) (b : List Byte) (s : State) : State :=
  let id := bNat b 0xC 4
  let watts := bNat b 0x10 4
  let mine := s.grants.find? (fun g => !g.given && g.hedge == h && g.peer == from' && g.ident == id)
  if (bNat b 0xA 2).testBit 0 then
    match mine with
    | none => s
    | some g =>
      let s := { s with grants := s.grants.map (fun x => if x = g then { x with renewed := s.now } else x) }
      sendSteer (getHedge s h).sgroup h from' kAccept 0 0 id g.watts s
  else
    let ok : Bool := hb s h Pct.hbEligible == 1 && mayReceive s && decide (10 * (receivedOf s h + watts) ≤ hb s h Pct.hbBase) &&
      decide ((capNow s : Int) + netWatts s + (watts : Int) ≤ (fusedMax s : Int)) && mine.isNone
    if ok then
      let s := addF pctPage Pct.grantCnt 1 (addGrant ⟨false, h, (getHedge s h).sgroup, from', id, watts, s.now, s.now⟩ s)
      sendSteer (getHedge s h).sgroup h from' kAccept 0 0 id watts s
    else sendSteer (getHedge s h).sgroup h from' kRefuse 0 0 id watts (setErr pctPage Pct.eSteerRefuse 0 0 s)

def execSteerGrant (k : ConnId) (s : State) : Host.Outcome State Fault Refusal := Host.Outcome.next (onSteer k.val kGrant takeGrant s)

/-- The grant given that an answer names. -/
def givenGrant (s : State) (h from' : Nat) (b : List Byte) : Option Grant :=
  s.grants.find? (fun g => g.given && g.hedge == h && g.peer == from' && g.ident == bNat b 0xC 4)

/-- ACCEPT: the grant is confirmed. -/
def takeAccept (h from' : Nat) (b : List Byte) (s : State) : State :=
  match givenGrant s h from' b with
  | none => s
  | some g => { s with grants := s.grants.map (fun x => if x = g then { x with acked := s.now } else x) }

def execSteerAccept (k : ConnId) (s : State) : Host.Outcome State Fault Refusal := Host.Outcome.next (onSteer k.val kAccept takeAccept s)

/-- REFUSE or RETURN: the donor restores the amount. -/
def restoreGrant (h from' : Nat) (b : List Byte) (s : State) : State :=
  match givenGrant s h from' b with
  | none => s
  | some g => dropGrant g s

def execSteerRefuse (k : ConnId) (s : State) : Host.Outcome State Fault Refusal := Host.Outcome.next (onSteer k.val kRefuse restoreGrant s)

def execSteerReturn (k : ConnId) (s : State) : Host.Outcome State Fault Refusal := Host.Outcome.next (onSteer k.val kReturn restoreGrant s)

/-- A grant lapses: at the receiver 20 ms after the last GRANT or RENEW (rule 5); at the donor, DEAD_MS + 21 ms after its last, where no ACCEPT has come for
20 ms (rule 6). -/
def lapsed (s : State) (g : Grant) : Bool :=
  if g.given then
    decide (g.acked + 20 * msEdges ≤ s.now) && decide (g.renewed + (getF s rasPage Ras.deadMs + 21) * msEdges ≤ s.now)
  else decide (g.renewed + 20 * msEdges ≤ s.now)

/-- LEASE_EXP: every grant that has lapsed goes; a receiver sends RETURN. -/
def leaseExp (s : State) : State :=
  if s.pwr.away.isSome then s
  else
    (s.grants.filter (lapsed s)).foldl (fun s g =>
      let s := addF pctPage Pct.leaseExpCnt 1 (setErr pctPage Pct.eLeaseExp 0 0 s)
      if g.given then dropGrant g s else returnGrant g s) s

def execLeaseExp (s : State) : Host.Outcome State Fault Refusal := Host.Outcome.next (leaseExp s)

end Sys2Proof.Machine
end

