-- ==== Sys2Proof/Machine/Control.lean ====
section
/-!
DEFINITION. The control loops, by R368 to R376 and R382 to R391: force-minimum, the issue limiter, the module loop, the step decision, thermal limits, activity
estimation, and the Privet watchdog that the loops outlast (R389, R446).
-/
namespace Sys2Proof.Machine

/-- Privet's firmware runs: it is powered, not in a watchdog restart, and bring-up is READY. -/
def privetRuns (s : State) : Bool := s.pwr.privetOn && s.pwr.away.isNone && s.pwr.pwrGood

/-- ALERT_OUT_N is asserted while force-minimum holds, while a cluster is in a thermal hold, and while P_in has exceeded C_eff for more than 2 ms
(R388). -/
def alertOut (s : State) : Bool :=
  getF s pctPage Pct.forced == 1 || getF s pctPage Pct.thermHoldAny == 1 || (match s.pwr.overAt with
    | some t => decide (t + 2 * msEdges < s.now)
    | none => false)

/-! ## Force-minimum (R388, R530) -/

/-- FORCE_MIN_N is low: force-minimum, from S7 of a bring-up on (R532). -/
def pinForce (s : State) : State :=
  let s : State := { s with pwr := { s.pwr with forceLow := true } }
  if getF s inpPage Inp.bulkEn = 0 ∨ beforeS7 s = true then s else forceMinimum s

/-- FORCE_MINIMUM: BULK_ALERT_N, or FORCE_MIN_N low for some time: from 1 µs recognised, under 200 ns ignored, between the two either. -/
def forceFrom (src : ForceSource) (s : State) : State :=
  match src with
  | .bulkAlert => if s.pwr.privetOn = false ∨ getF s inpPage Inp.bulkEn = 0 then s else bulkAlert s
  | .pinLow ns =>
    if ns < 200 then s
    else if 1000 ≤ ns then pinForce s
    else
      let d := draw s
      if d.1 % 2 = 0 then d.2 else pinForce d.2

def execForceMinimum (src : ForceSource) (s : State) : Host.Outcome State Fault Refusal := Host.Outcome.next (forceFrom src s)

/-- FORCE_MIN_RELEASE: every cause has been clear for some edges; after 10 ms or more Privet lifts the ceiling. A pin that was low before force-minimum began is high
again. -/
def forceRelease (edges : Nat) (s : State) : State :=
  if getF s pctPage Pct.forced = 0 then { s with pwr := { s.pwr with forceLow := false } }
  else if edges < 10 * msEdges ∨ s.pwr.away.isSome then s
  else
    let s := setF inpPage Inp.railLowBit 0 (setF inpPage Inp.bulkAlert 0 (setF pctPage Pct.forced 0 s))
    showCeils { s with pwr := { s.pwr with forceLow := false } }

def execForceMinRelease (edges : Word32) (s : State) : Host.Outcome State Fault Refusal := Host.Outcome.next (forceRelease edges.toNat s)

/-! ## The issue limiter (R370) -/

/-- What the Spring and the counters show of one microsecond: output voltage and current, measured power and estimate, which enter the running 1 ms
sample (R384). -/
def measureSpring (cl iout vout est : Nat) (s : State) : State :=
  let meas := iout * vout / 1000
  let s := setF (sprPage cl) Spr.vout vout (setF (sprPage cl) Spr.iout iout s)
  let s := setC cl Cpc.pMeas meas (setC cl Cpc.pEst est s)
  let c := getClus s cl
  putClus cl { c with measSum := c.measSum + meas, estSum := c.estSum + est, measN := c.measN + 1 } s

/-- ISSUE_LIMITER_PERIOD: the Spring's measured output over 1 µs, in 1/256 A and mV, and the cluster's estimate in 1/256 W. A Spring that is up is measured;
the limiter acts while the cluster is clocked. -/
def limiterPeriod (cl iout vout est : Nat) (s : State) : State :=
  if clkState s cl ≠ 1 ∧ clkState s cl ≠ 2 then (if sprUp s cl then measureSpring cl iout vout est s else s)
  else
    let c := getClus s cl
    let long : Bool := match c.droopAt with
      | some t => decide (t + msEdges < s.now)
      | none => false
    let s := if long ∧ getC s cl Cpc.droopLong = 0 then journalEvent (pgClk cl) 0xFF cl (setC cl Cpc.droopLong 1 s) else s
    let s := measureSpring cl iout vout est s
    let l := getC s cl Cpc.issueL
    let excess : Bool := long || decide (getF s (sprPage cl) Spr.efflim * 256 < iout)
    let run := if excess then 0 else c.okRun + 1
    let l' := if excess then max 1 (l - 1) else if run = 8 then min (getC s cl Cpc.ceil) (l + 1) else l
    let s := setC cl Cpc.issueL l' s
    putClus cl { getClus s cl with okRun := if run = 8 then 0 else run, lSum := c.lSum + l', lCnt := c.lCnt + 1 } s

def execIssueLimiterPeriod (cl : ClusterId) (iout vout est : Word16) (s : State) : Host.Outcome State Fault Refusal :=
  Host.Outcome.next (limiterPeriod cl.val iout.toNat vout.toNat est.toNat s)

/-! ## The module loop (R372 to R374) -/

/-- P_spr: VOUT × IOUT over all Springs, in W. -/
def springWatts (s : State) : Nat :=
  allClusters.foldl (fun n cl => n + getF s (sprPage cl) Spr.vout * getF s (sprPage cl) Spr.iout) 0 / 256000

/-- MISMATCH: set after 10 periods in a row more than 5 % of P_in apart, cleared after 10 within. -/
def showMismatch (pIn pred : Nat) (s : State) : State :=
  let off : Bool := decide (5 * pIn < 100 * (max pIn pred - min pIn pred))
  let p := s.pwr
  let s := { s with pwr := { p with mmRun := if off then p.mmRun + 1 else 0, mmOk := if off then 0 else p.mmOk + 1 } }
  if off ∧ 10 ≤ p.mmRun + 1 ∧ getF s pctPage Pct.mismatchBit = 0 then
    journal jEvent pgPct Pct.eMismatch 0xFF pred (setErr pctPage Pct.eMismatch 0 0 (setF pctPage Pct.mismatchBit 1 s))
  else if off = false ∧ 10 ≤ p.mmOk + 1 then setF pctPage Pct.mismatchBit 0 s
  else s

/-- A cluster figure as the loop uses it, in 1/256 W: scaled by (P_in − P_per) ÷ (P_spr ÷ 0.95) while MISMATCH is set. -/
def figure (s : State) (pIn pPer pSpr v : Nat) : Nat :=
  if getF s pctPage Pct.mismatchBit = 1 ∧ 0 < pSpr then v * ((pIn - pPer) * 95) / (pSpr * 100) else v

/-- A cluster's estimate over the last period: the measured power stands for it while it is DIVERGED (R384). -/
def clusterEst (s : State) (cl : Nat) : Nat := if getC s cl Cpc.diverged = 1 then getC s cl Cpc.pMeas else getC s cl Cpc.pEst

/-- The Hedge whose budget serves a cluster: its plot is bound and it is not in retention. -/
def budgetHedge (s : State) (cl : Nat) : Option Nat :=
  if sprState s cl = sprRetention then none else hedgeOfPlot s (plotOfCluster cl)

/-- Clusters that a Hedge's budget serves. -/
def budgetClusters (s : State) (h : Nat) : List Nat :=
  (hedgeClusters (getHedge s h)).filter (fun cl => sprUp s cl && sprState s cl != sprRetention)

/-- Watts in 1/256 as amps at the cluster's VSET, times TF ÷ 16 and K, rounded down. -/
def shareAmps (s : State) (cl w : Nat) : Nat :=
  let mv := 450 + 5 * getF s (sprPage cl) Spr.vcode
  w * 1000 * getC s cl Cpc.tf * getF s pctPage Pct.k / (256 * mv * 16 * 1024)

/-- A cluster's share of a budget in 1/256 W, in proportion to its estimate and at least a quarter of the even share. -/
def clusterShare (n total est budget : Nat) : Nat :=
  let even := budget / n
  max (even / 4) (if total = 0 then even else budget * est / total)

/-- Writes LIMIT and LIMBASE of the clusters of one Hedge from its budget with and without received grants, in W. -/
def writeLimits (h : Nat) (fig : Nat → Nat) (s : State) : State :=
  let cls := budgetClusters s h
  let ests := cls.map (fun cl => (cl, fig (clusterEst s cl)))
  let total := ests.foldl (fun n e => n + e.2) 0
  let b := 256 * hb s h Pct.hbBudget
  let b0 := 256 * (hb s h Pct.hbBudget - receivedOf s h)
  ests.foldl (fun s e =>
    let s := setLimit e.1 (shareAmps s e.1 (clusterShare cls.length total e.2 b)) s
    setC e.1 Cpc.limBase (max 1 (min 80 (shareAmps s e.1 (clusterShare cls.length total e.2 b0)))) s) s

/-- Budgets of the bound Hedges (R373): base in proportion to plots, yields of those that drew less than 90 % of their last base to the others, and
the grants. -/
def setBudgets (pool : Nat) (fig : Nat → Nat) (s : State) : State :=
  let bound := (List.range 32).filter (fun h => decide ((getHedge s h).state ≠ .unbound))
  let plots := fun h => (hedgePlots (getHedge s h)).length
  let all := bound.foldl (fun n h => n + plots h) 0
  let base := fun h => pool * plots h / (256 * max 1 all)
  let drew := fun h => (budgetClusters s h).foldl (fun n cl => n + fig (getC s cl Cpc.pMeas)) 0 / 256
  let yields := bound.map (fun h => (h, if 10 * drew h < 9 * hb s h Pct.hbBase ∧ 1 < bound.length then base h - drew h else 0))
  let gain := fun h => yields.foldl (fun n e => if e.1 = h then n else n + e.2 * plots h / (all - plots e.1)) 0
  let out := bound.map (fun h => (h, base h, base h - (yields.foldl (fun n e => if e.1 = h then e.2 else n) 0) + gain h))
  let s := (List.range 32).foldl (fun s h => if h ∈ bound then s else
    showClass h (setHb h Pct.hbBudget 0 (setHb h Pct.hbBase 0 s))) s
  out.foldl (fun s e =>
    let h := e.1
    let s := setHb h Pct.hbBase e.2.1 (showClass h s)
    let s := setHb h Pct.hbBudget (((e.2.2 : Nat) : Int) + (receivedOf s h : Int) - (givenOf s h : Int)).toNat s
    trimReceived h s.grants.length s) s

/-- TF of a cluster for one period (R386). -/
def stepTf (cl : Nat) (s : State) : State :=
  let c := getClus s cl
  let t := getC s cl Cpc.tC
  let f := getC s cl Cpc.tf
  if c.hot then setC cl Cpc.tf (max 4 (f - 1)) s else if t ≤ 552 then setC cl Cpc.tf (min 16 (f + 1)) s else s

def stepTfs (s : State) : State :=
  let s := allClusters.foldl (fun s cl => stepTf cl s) s
  let low := allClusters.any (fun cl => decide (getC s cl Cpc.tf < 16))
  let s : State := { s with pwr := { s.pwr with sawTf := s.pwr.sawTf || low } }
  setF pctPage Pct.thermReduce (if low then 1 else 0) s

/-- K after a period (R374). -/
def nextK (k pIn cEff : Nat) : Nat :=
  let k' := if cEff < pIn then k * cEff / pIn else if 100 * pIn < 97 * cEff then k + k / 100 else k
  max 512 (min 1126 k')

/-- MODULE_LOOP_PERIOD: measured P_in and P_per in W. Where the loss ratio cannot be formed (no Spring power, or P_in at or below P_per) the spec gives no cluster
pool: a free value. -/
def moduleLoop (pIn pPer : Nat) (s : State) : State :=
  if privetRuns s = false then s
  else
    let pSpr := springWatts s
    let pred := pPer + pSpr * 100 / 95
    let s := setF inpPage Inp.inP pIn (setF pctPage Pct.pPer pPer (setF pctPage Pct.pIn pIn s))
    let s := setF pctPage Pct.pPred pred (setF pctPage Pct.pSpr pSpr s)
    let s := stepTfs (showMismatch pIn pred s)
    let cEff := getF s pctPage Pct.capEff
    let s := setF pctPage Pct.k (nextK (getF s pctPage Pct.k) pIn cEff) s
    let excess := if cEff < pIn then some (s.pwr.overAt.getD s.now) else none
    let high := decide (9 * cEff < 10 * pIn)
    let s : State := { s with pwr := { s.pwr with overAt := excess, sawPin := s.pwr.sawPin || high } }
    let fig := figure s pIn pPer pSpr
    let q := if 0 < pSpr ∧ pPer < pIn then ((cEff - pPer) * 256 * pSpr / (pIn - pPer), s) else draw s
    let rest := allClusters.filter (fun cl => sprUp q.2 cl && (budgetHedge q.2 cl).isNone)
    let spent := rest.foldl (fun n cl => n + fig (getC q.2 cl Cpc.pMeas)) 0
    let s := setBudgets (q.1 - spent) fig q.2
    let s := rest.foldl (fun s cl =>
      let a := shareAmps s cl (fig (getC s cl Cpc.pMeas))
      setC cl Cpc.limBase (max 1 (min 80 a)) (setLimit cl a s)) s
    (List.range 32).foldl (fun s h => writeLimits h fig s) s

def execModuleLoopPeriod (pIn pPer : Word16) (s : State) : Host.Outcome State Fault Refusal :=
  Host.Outcome.next (moduleLoop pIn.toNat pPer.toNat s)

/-! ## The step decision (R375) -/

/-- Clusters whose L the decision looks at: those that ran in the millisecond. -/
def ranClusters (s : State) : List Nat := allClusters.filter (fun cl => decide (0 < (getClus s cl).lCnt))

/-- The running millisecond starts again. -/
def freshWindow (s : State) : State :=
  let s := (ranClusters s).foldl (fun s cl => putClus cl { getClus s cl with lSum := 0, lCnt := 0 } s) s
  let forced := getF s pctPage Pct.forced == 1
  { s with pwr := { s.pwr with sawPin := false, sawHot := false, sawTf := false, sawForce := forced, decided := s.now } }

/-- STEP_DECISION: `fit` is the highest step code at which Privet's estimate of every active cluster's draw at L = 16 fits its share. A step down goes to it, at least one code
down; a step up raises VSET for one code more, and GO arms it. -/
def stepDecision (fit : Nat) (s : State) : State :=
  if privetRuns s = false ∨ s.now < s.pwr.decided + msEdges ∨ s.now < s.pwr.heldTo then s
  else
    let f := stepCode s
    let ran := ranClusters s
    let sum := ran.foldl (fun n cl => n + (getClus s cl).lSum) 0
    let cnt := ran.foldl (fun n cl => n + (getClus s cl).lCnt) 0
    let down : Bool := decide (0 < cnt ∧ sum < 12 * cnt) || s.pwr.sawTf
    let up : Bool := ran.all (fun cl => (getClus s cl).lSum == 16 * (getClus s cl).lCnt) && !s.pwr.sawPin && !s.pwr.sawHot && !s.pwr.sawForce
    let s := freshWindow s
    if down then (if f ≤ 10 then s else stepGo (max 10 (min fit (f - 1))) (getF s refPage Ref.armCount) s)
    else if up ∧ f < fusedStep s then setF refPage Ref.target (f + 1) (setVsets (f + 1) s)
    else s

def execStepDecision (fit : Fin 64) (s : State) : Host.Outcome State Fault Refusal := Host.Outcome.next (stepDecision fit.val s)

/-! ## Thermal limits (R386, R387) -/

/-- The thermal trip: FATAL, THERMTRIP_N latched, bulk enable dropped. -/
def thermalTrip (s : State) : State :=
  let s := keepErr pctPage Pct.eThermtrip (setErr pctPage Pct.eThermtrip 0 0 s)
  let s := dropBulk (reportFatal 4 s)
  { s with pwr := { s.pwr with thermTrip := true } }

/-- A sensor's validity after a sample: outside −40 to 150 °C, or 15 °C from the median of the other three for 1 ms, it is invalid until the next device
reset. Readings are quarters of a degree. -/
def senseOne (cl : Nat) (ts : List Int) (k : Nat) (s : State) : State :=
  let ok := getC s cl Cpc.sensorOk
  if ok.testBit k = false then s
  else
    let t := ts.getD k 0
    let others := (List.range 4).filter (· != k) |>.map (fun i => (ts.getD i 0 + 1000000).toNat)
    let far : Bool := decide (60 < (t + 1000000 - (median others : Int)).natAbs)
    let c := getClus s cl
    let since := tblGet s.now c.oddAt k
    let c := { c with oddAt := if far then tblInsert k since c.oddAt else tblErase k c.oddAt }
    let s := putClus cl c s
    if t < -160 ∨ 600 < t ∨ (far ∧ since + msEdges ≤ s.now) then
      let s := setC cl Cpc.sensorOk (ok - 2 ^ k) s
      let s := journal jEvent pgPct Pct.eSensorBad 0xFF cl (setErr pctPage Pct.eSensorBad 0 0 s)
      setLimit cl (getF s (sprPage cl) Spr.limit) s
    else s

/-- THERMAL_SAMPLE: the four readings of a cluster, in quarters of a degree, and whether 100 °C is predicted within 1 ms. -/
def thermalSample (cl : Nat) (ts : List Int) (predicted : Bool) (s : State) : State :=
  if getF s inpPage Inp.bulkEn = 0 then s
  else
    let s := (List.range 4).foldl (fun s k => senseOne cl ts k s) s
    let valid := (List.range 4).filter (fun k => (getC s cl Cpc.sensorOk).testBit k)
    match valid.map (fun k => ts.getD k 0) with
    | [] => s
    | t0 :: rest =>
      let t := rest.foldl max t0
      let s := setC cl Cpc.tC (min 1023 (t + 160).toNat) s
      let c := getClus s cl
      let s := putClus cl { c with hot := predicted || decide (400 ≤ t), warmAt := if 420 ≤ t then s.now else c.warmAt } s
      let warm := decide (380 < t)
      let s : State := { s with pwr := { s.pwr with sawHot := s.pwr.sawHot || warm } }
      if 500 ≤ t then thermalTrip s
      else if 440 ≤ t ∧ getC s cl Cpc.hold = 0 then
        showCeil cl (setC cl Cpc.hold 1 (setF pctPage Pct.thermHoldAny 1 (setErr pctPage Pct.eThermHold 0 0 s)))
      else s

def execThermalSample (cl : ClusterId) (t0 t1 t2 t3 : Int) (predicted : Bool) (s : State) : Host.Outcome State Fault Refusal :=
  Host.Outcome.next (thermalSample cl.val [t0, t1, t2, t3] predicted s)

/-- THERMAL_HOLD_RELEASE: after 1 ms below 105 °C. -/
def holdRelease (cl : Nat) (s : State) : State :=
  if getC s cl Cpc.hold = 1 ∧ getC s cl Cpc.tC < 580 ∧ (getClus s cl).warmAt + msEdges ≤ s.now then
    let s := setC cl Cpc.hold 0 s
    let any := allClusters.any (fun c => getC s c Cpc.hold == 1)
    showCeil cl (setF pctPage Pct.thermHoldAny (if any then 1 else 0) s)
  else s

def execThermalHoldRelease (cl : ClusterId) (s : State) : Host.Outcome State Fault Refusal := Host.Outcome.next (holdRelease cl.val s)

/-- Package temperatures as their channels hold them. -/
def mereTemps (s : State) : List Nat := (List.range 48).map (fun p => getF s (mcPage (4 * p)) Mc.temp)

/-- MERE_THERMAL_REDUCTION: 5 % down every 10 ms while a package is at 95 °C, 5 % up every 100 ms once all are at 90 °C or below. -/
def mereReduction (s : State) : State :=
  if privetRuns s = false then s
  else
    let p := s.pwr
    let set := fun (n : Nat) (s : State) =>
      let s : State := { s with pwr := { s.pwr with mereCut := n, mereAt := s.now } }
      setCap (setF pctPage Pct.mereHotBit (if n = 0 then 0 else 1) s)
    if (mereTemps s).any (fun t => decide (95 ≤ t)) then
      if p.mereCut = 0 then set 1 (setErr pctPage Pct.eMereHot 0 0 s)
      else if p.mereCut < 10 ∧ p.mereAt + 10 * msEdges ≤ s.now then set (p.mereCut + 1) s
      else s
    else if (mereTemps s).all (fun t => decide (t ≤ 90)) ∧ 0 < p.mereCut ∧ p.mereAt + 100 * msEdges ≤ s.now then set (p.mereCut - 1) s
    else s

def execMereThermalReduction (s : State) : Host.Outcome State Fault Refusal := Host.Outcome.next (mereReduction s)

/-! ## Estimation (R382 to R385) -/

/-- WEIGHT_REFIT: fitted weights in 1/256 of their fused defaults, and the RMS residual in 1/1,000 of the mean measured power. -/
def weightRefit (cl : Nat) (ws : List Nat) (residual : Nat) (s : State) : State :=
  if privetRuns s = false then s
  else
    let s := putClus cl { getClus s cl with refitDue := false } s
    if residual ≤ 100 ∧ ws.length = 8 ∧ ws.all (fun w => decide (64 ≤ w ∧ w ≤ 1024)) then putClus cl { getClus s cl with weights := ws } s
    else addF pctPage Pct.refitRejCnt 1 s

def execWeightRefit (cl : ClusterId) (ws : List Word16) (residual : Word16) (s : State) : Host.Outcome State Fault Refusal :=
  Host.Outcome.next (weightRefit cl.val (ws.map (fun w => w.toNat)) residual.toNat s)

/-- The number of DIVERGED clusters is shown. -/
def showDiverged (s : State) : State :=
  setF pctPage Pct.divergedCnt ((allClusters.filter (fun cl => getC s cl Cpc.diverged == 1)).length) s

/-- ESTIMATE_CHECK: one 1 ms sample, of the microseconds since the check before. Twenty in a row more than 25 % apart mark DIVERGED, a hundred within clear it;
a mark of 60 s asks for a recalibration. A sample below 2 W does not count. -/
def estimateCheck (cl : Nat) (s : State) : State :=
  if privetRuns s = false then s
  else
    let c := getClus s cl
    let m := c.measSum
    let e := c.estSum
    let c := { c with measSum := 0, estSum := 0, measN := 0 }
    if (getClus s cl).measN = 0 ∨ m < 512 * (getClus s cl).measN then putClus cl c s
    else
      let off : Bool := decide (m < 4 * (max e m - min e m))
      let c := { c with offRun := if off then c.offRun + 1 else 0, inRun := if off then 0 else c.inRun + 1 }
      let was := getC s cl Cpc.diverged
      if was = 0 ∧ 20 ≤ c.offRun then
        let s := putClus cl { c with divAt := s.now, refitDue := true } (setC cl Cpc.diverged 1 s)
        showDiverged (journal jEvent pgPct Pct.eDiverged 0xFF cl (setErr pctPage Pct.eDiverged 0 0 s))
      else if was = 1 ∧ 100 ≤ c.inRun then showDiverged (putClus cl c (setC cl Cpc.diverged 0 s))
      else putClus cl { c with recalDue := c.recalDue || (was == 1 && decide (c.divAt + 60 * secEdges ≤ s.now)) } s

def execEstimateCheck (cl : ClusterId) (s : State) : Host.Outcome State Fault Refusal := Host.Outcome.next (estimateCheck cl.val s)

/-- A cluster may be recalibrated: idle, and its Hedge READY or its plot unbound. -/
def recalSlot (s : State) (cl : Nat) : Bool :=
  clusterIdle s cl && sprState s cl == sprActive && (match hedgeOfPlot s (plotOfCluster cl) with
    | none => true
    | some h => decide ((getHedge s h).state = .ready) && (getHedge s h).run.isNone)

/-- RECALIBRATION: in an idle slot it begins; 100 µs later it ends with the gain error found, in 1/1,000: within 200 it is applied, above it SENSE_BAD retires the
cluster by the planned remap. An activity in between aborts it. -/
def recalibration (cl : Nat) (gainErr : Int) (s : State) : State :=
  let c := getClus s cl
  match c.recalAt with
  | none => if c.recalDue ∧ recalSlot s cl ∧ privetRuns s then putClus cl { c with recalAt := some s.now } s else s
  | some t =>
    if recalSlot s cl = false then abortRecal cl s
    else if s.now < t + 100 * usEdges then s
    else
      let s := putClus cl { c with recalAt := none, recalDue := false, gain := if gainErr.natAbs ≤ 200 then gainErr else c.gain } s
      if gainErr.natAbs ≤ 200 then setC cl Cpc.senseBad 0 s
      else planCluster cl (setErr pctPage Pct.eRecalFail 0 0 (setC cl Cpc.senseBad 1 s))

def execRecalibration (cl : ClusterId) (gainErr : Int) (s : State) : Host.Outcome State Fault Refusal :=
  Host.Outcome.next (recalibration cl.val gainErr s)

/-! ## The Privet watchdog (R389, R446) -/

/-- LIMBASE goes into LIMIT in every Spring. -/
def fallToBase (s : State) : State :=
  allClusters.foldl (fun s cl => showLimit cl (setF (sprPage cl) Spr.limit (getC s cl Cpc.limBase) s)) s

/-- PRIVET_WATCHDOG_RESET: the controller restarts. Its running state and sessions go; everything else goes on. During bring-up it acts as a device reset; a third
within 60 s is FATAL. The spec lists no reset cause for it: the journal's code is free. -/
def watchdogReset (s : State) : State :=
  if s.pwr.privetOn = false ∨ s.pwr.away.isSome then s
  else
    let d := draw s
    let s := addF prvPage Prv.wdogCnt 1 d.2
    if bootRunning s then deviceReset (d.1 % 16) s
    else
      let times := s.pwr.wdogs.filter (fun t => decide (s.now < t + 60 * secEdges)) ++ [s.now]
      let s := setErr errPage Err.eWdog 0 0 s
      let s := setF secPage Sec.sessMgmt 0 (setF secPage Sec.sessMb 0 s)
      let s := s.cores.foldl (fun s e => if e.2.mode = .test then putCore e.1 { e.2 with mode := .idle } s else s) s
      let s := { s with sessions := [], frags := [], tests := [], busy := s.busy.map (fun u => { u with broken := true }), pwr := { s.pwr with away := some s.now, wdogs := times } }
      let s := fallToBase (journal jReset pgErr (d.1 % 65536) 0xFF 0 s)
      if 3 ≤ times.length then reportFatal 5 { s with pwr := { s.pwr with escalated := true } } else s

def execPrivetWatchdogReset (s : State) : Host.Outcome State Fault Refusal := Host.Outcome.next (watchdogReset s)

/-- PRIVET_WATCHDOG_RETURN: every received grant is dropped with RETURN, and VSET follows the step in force again. After an escalation the hardware stays at LIMBASE
until a device reset. -/
def watchdogReturn (s : State) : State :=
  if s.pwr.away.isNone ∨ s.pwr.escalated then s
  else
    let s := { s with pwr := { s.pwr with away := none } }
    let s := (s.grants.filter (fun g => !g.given)).foldl (fun s g => returnGrant g s) s
    setVsets (stepCode s) s

def execPrivetWatchdogReturn (s : State) : Host.Outcome State Fault Refusal := Host.Outcome.next (watchdogReturn s)

/-- PRIVET_WATCHDOG_ESCALATION: Privet has not returned within 500 ms. -/
def watchdogEscalation (s : State) : State :=
  match s.pwr.away with
  | none => s
  | some t =>
    if s.pwr.escalated ∨ s.now < t + 500 * msEdges then s
    else reportFatal 5 { s with pwr := { s.pwr with escalated := true } }

def execPrivetWatchdogEscalation (s : State) : Host.Outcome State Fault Refusal := Host.Outcome.next (watchdogEscalation s)

end Sys2Proof.Machine
end

