-- ==== Sys2Proof/Machine/BringUp.lean ====
section
/-!
DEFINITION. Bring-up, by R397 to R413: its stages, the boot report ring, the defect sources, the logical map and halts.
-/
namespace Sys2Proof.Machine

/-! ## The boot report ring (R398 to R400) -/

/-- RESULT codes. -/
def rPass : Nat := 0
def rDegraded : Nat := 1
def rRepeat : Nat := 2
def rHalt : Nat := 3
def rAborted : Nat := 4

/-- The UNITS words of a record: up to eight numbers in ascending order, 0xFFFF where unused. -/
def unitWords (units : List Nat) : List Nat :=
  let u := ((units.foldr insertSorted []).take 8) ++ List.replicate 8 0xFFFF
  (List.range 4).map (fun i => u.getD (2 * i) 0xFFFF % 2 ^ 16 + u.getD (2 * i + 1) 0xFFFF % 2 ^ 16 * 2 ^ 16)

/-- Writes a report record into the next slot of the ring. -/
def bootRecord (stage result code n1 n2 mask : Nat) (units : List Nat) (s : State) : State :=
  let seq := getF s bupPage Bup.next
  let slot := seq % 256
  let words := [stage + result * 2 ^ 8 + code * 2 ^ 16, seq, s.bootNo, min (s.now - s.boot.stageAt) (2 ^ 32 - 1), n1, n2, mask % 2 ^ 32,
    mask / 2 ^ 32] ++ unitWords units ++ [0, 0, 0, 0]
  let s := words.zipIdx.foldl (fun s e => setF (brgPage (slot / 32)) Brg.recordWord e.1 s (16 * (slot % 32) + e.2)) s
  let soft := result == rDegraded
  let s : State := { s with boot := { s.boot with written := s.boot.written + 1, soft := s.boot.soft || soft, degraded := s.boot.degraded || soft } }
  addF bupPage Bup.next 1 s

def bootStage (s : State) : Nat := getF s bupPage Bup.stage

/-- A report of the running stage. -/
def report (result code n1 n2 : Nat) (units : List Nat) (s : State) : State := bootRecord (bootStage s) result code n1 n2 0 units s

/-- A stage starts: journalled, its count of records at zero. -/
def enterStage (n : Nat) (s : State) : State :=
  let s : State := { s with boot := { s.boot with stageAt := s.now, written := 0, soft := false } }
  journalEvent pgBup 0xFF n (setF bupPage Bup.stage n s)

/-- The summary record of a stage. -/
def summary (result : Nat) (s : State) : State :=
  bootRecord (bootStage s) result (bootStage s * 256) s.boot.written 0 0 [] s

/-- A stage ends with its summary, and the next begins. -/
def endStage (s : State) : State :=
  enterStage (bootStage s + 1) (summary (if s.boot.soft then rDegraded else rPass) s)

/-- Bring-up may go on: Privet is powered and RESET_N is high. -/
def bootGo (n : Nat) (s : State) : Bool :=
  inStage s n && s.pwr.privetOn && !s.pwr.resetLow && !s.pwr.failing && !s.pwr.thermTrip && (n == 0 || s.boot.begun)

/-! ## Halts (R401) -/

/-- The interfaces that the port modes present begin to train (R413). -/
def startPorts (s : State) : State :=
  let s : State := { s with boot := { s.boot with ports := true } }
  ((List.range 4).filter (ifcPresent s)).foldl (fun s i => putIfc i { getIfc s i with state := ifTraining, since := s.now } s) s

/-- Every Spring OFF, every cluster clock in PARK: no core runs. -/
def stopClusters (s : State) : State :=
  let s := allClusters.foldl (fun s cl => parkClock cl (springOff cl sprOff s)) s
  { s with cores := [] }

/-- A halt with its code and the record's N1 and N2: the records, BOOT_STAT, and what stays powered. -/
def haltBoot (code n1 n2 : Nat) (s : State) : State :=
  let n := bootStage s
  let s := summary rHalt (report rHalt code n1 n2 [] s)
  let s := setF bupPage Bup.code code (setF bupPage Bup.state 3 s)
  let s := keepErr bupPage Bup.eHalt (setErr bupPage Bup.eHalt 0 0 (setF prvPage Prv.state 2 s))
  if n ≤ 1 then dropBulk s else startPorts (stopClusters s)

/-- Budgets of the stages in ms (R397). -/
def budgets : List Nat := [200, 20, 5, 10, 20, 2, 10, 60, 300, 5010]

/-- BUDGET: the running stage overruns its budget. -/
def budgetHalt (s : State) : State :=
  let n := bootStage s
  let b := budgets.getD n 0
  -- A second pass of S7 has a budget of its own, with that of the run of S5 before it (R397).
  let all := if n = 7 ∧ s.boot.passes = 1 then 2 * b + 2 else b
  if bootGo n s = false ∨ s.boot.begun = false ∨ 10 ≤ n ∨ s.now ≤ s.boot.stageAt + all * msEdges then s
  else haltBoot (n * 256 + 0xFF) b 0 s

def execStageBudget (s : State) : Host.Outcome State Fault Refusal := Host.Outcome.next (budgetHalt s)

/-! ## S0 and S1 -/

/-- The words of a 48-byte digest in a page. -/
def setDigest (base : Nat) (f : Field) (i0 : Nat) (d : List Byte) (s : State) : State :=
  (List.range 12).foldl (fun s j => setF base f (leNat ((d.drop (4 * j)).take 4)) s (i0 + j)) s

/-- The running image's bytes. -/
def runningImage (s : State) : List Byte := if s.flash.slot = 0 then s.flash.slotA else s.flash.slotB

/-- M3 covers the configuration entries in flash, 16 bytes each: address, value and mask (R460, R471). -/
def configDigest (s : State) : List Byte :=
  sha384 (s.flash.config.flatMap (fun e => leBytes 8 e.1 ++ leBytes 4 e.2.1 ++ leBytes 4 e.2.2))

/-- The four measurements of S0 (R471). -/
def measure (s : State) : State :=
  let img := runningImage s
  let s := setDigest secPage Sec.meas 0 (leBytes 48 Config.romDigest) s
  let s := setDigest secPage Sec.meas 12 (sha384 (img.take 256)) s
  let s := setDigest secPage Sec.meas 24 ((img.drop 0x20).take 48) s
  setDigest secPage Sec.meas 36 (configDigest s) s

/-- The oscillator that S0 takes: OSC0 where it passes. One that is LOST stays unused until the next power-on reset (R348, R349). -/
def pickOsc (osc0 osc1 : Bool) (s : State) : Option Nat × State :=
  let ok0 := osc0 && getF s refPage Ref.osc0Lost == 0
  let ok1 := osc1 && getF s refPage Ref.osc1Lost == 0
  if ok0 = false ∧ ok1 = false then (some 0x0002, s)
  else
    let s := setF refPage Ref.source (if ok0 then 0 else 1) s
    (none, if ok0 ∧ ok1 then s else report rDegraded 0x0001 (if ok0 then 1 else 0) 0 [] s)

/-- The image that boots (R400, R447): the pointer reverts after two trial boots that did not reach S10; where the active image fails R469 the other is taken. -/
def pickImage (okA okB : Bool) (s : State) : Option Nat × State :=
  let fl := s.flash
  let fallback := fun (s : State) =>
    journal jEvent pgSec Sec.eImageFallback 0xFF 0 (keepErr secPage Sec.eImageFallback (setErr secPage Sec.eImageFallback 0 0 s))
  let s := if fl.trial ∧ 2 ≤ fl.trials then fallback { s with flash := { fl with slot := 1 - fl.slot, trial := false, trials := 0 } } else s
  let good := fun (n : Nat) => if n = 0 then okA && s.flash.validA else okB && s.flash.validB
  let a := s.flash.slot
  if good a then (none, s)
  else if good (1 - a) then
    (none, report rDegraded 0x0005 0 0 [] (fallback { s with flash := { s.flash with slot := 1 - a, trial := false, trials := 0 } }))
  else (some 0x0006, s)

/-- The reports of the bars that S0 checks (R322). -/
def checkBars (s : State) : State :=
  [0, 1].foldl (fun s b => if barState s b = 0 then s else report rDegraded 0x0003 b (barState s b) [] s) s

/-- The first record of S0 stands for an interrupted bring-up (R398). -/
def abortedRecord (s : State) : State :=
  match s.boot.broken with
  | none => s
  | some (st, n) => bootRecord st rAborted (st * 256 + 0xFE) n 0 0 [] s

/-- PRIVET_WAKE, stage S0: verdicts of the oscillator checks, the Privet fuses and R469 on each image slot. -/
def privetWake (osc0 osc1 fusesOk okA okB : Bool) (s : State) : State :=
  if bootGo 0 s = false ∨ s.boot.begun then s
  else
    let s : State := { s with bootNo := s.bootNo + 1, bootAt := s.now, boot := { begun := true, broken := s.boot.broken, stageAt := s.now } }
    let s := setF bupPage Bup.logEntries s.dlog.length (abortedRecord (enterStage 0 s))
    let o := pickOsc osc0 osc1 s
    match o.1 with
    | some code => haltBoot code 0 0 o.2
    | none =>
      let s := checkBars o.2
      if fusesOk = false then haltBoot 0x0004 0 0 s
      else
        let i := pickImage okA okB s
        match i.1 with
        | some code => haltBoot code 0 0 i.2
        | none =>
          let s := i.2
          let s := setF prvPage Prv.imageSvn (bNat (runningImage s) 0x10 1) (setF prvPage Prv.trial (if s.flash.trial then 1 else 0) s)
          -- The fuses govern where the EEPROM disagrees, and the disagreement is journalled (R4).
          let s := if s.fuses.eeGrade = s.fuses.grade then s else journalEvent pgBup 0xFF s.fuses.eeGrade s
          endStage (applyConfig (measure s))

def execPrivetWake (osc0 osc1 fusesOk okA okB : Bool) (s : State) : Host.Outcome State Fault Refusal :=
  Host.Outcome.next (privetWake osc0 osc1 fusesOk okA okB s)

/-- A bulk cell that S1 does not start: it failed in this power cycle (R326), which the log shows while it has room, or the log names it twice (R405). -/
def cellHeld (s : State) (i : Nat) : Bool :=
  let l := s.dlog.filter (fun d => d.kind == 4 && d.unit == i)
  decide (i ∈ s.deadCells) || decide (2 ≤ l.length) || l.any (fun d => d.powerOn == s.powerOn)

/-- BULK_ENABLE, stage S1: the cells that fail to start, and the rail in mV. -/
def bulkEnable (fails : List Nat) (mv : Nat) (s : State) : State :=
  if bootGo 1 s = false then s
  else
    let held := (List.range 72).filter (cellHeld s)
    let bad := fails.filter (fun i => i ∉ held)
    let off := (List.range 72).filter (fun i => decide (i ∈ held ∨ i ∈ bad))
    let g := 72 - off.length
    let word := fun (w : Nat) => (List.range 32).foldl (fun n i => if 32 * w + i < 72 ∧ 32 * w + i ∉ off then n + 2 ^ i else n) 0
    let s := [0, 1, 2].foldl (fun s w => setF inpPage Inp.cellOk (word w) s w) s
    let s := setF inpPage Inp.rail mv (setF inpPage Inp.good g (setF inpPage Inp.bulkEn 1 s))
    let s := bad.foldl (fun s i => logDefect 4 0x01 1 i { s with deadCells := insertAsc i s.deadCells }) s
    let s := if off.isEmpty then s else report rPass 0x0101 g 0 off s
    let s := if g < 68 then report rDegraded 0x0102 g 0 [] (setErr inpPage Inp.eCellsLow 0 0 (setF pctPage Pct.cellsLow 1 s)) else s
    if mv < 1764 ∨ 1836 < mv then haltBoot 0x0103 mv 0 s
    else endStage (showBars s)

def execBulkEnable (fails : List (Fin 72)) (millivolts : Fin 4096) (s : State) : Host.Outcome State Fault Refusal :=
  Host.Outcome.next (bulkEnable ((fails.map (fun i => i.val)).eraseDups) millivolts.val s)

/-! ## S2: the defect fuse map (R402, R404) -/

/-- One word of the map: the word two copies agree on, and whether a copy was outvoted; none where all three differ. -/
def voteWord (a b c : Nat) : Option (Nat × Bool) :=
  if a = b then some (a, a ≠ c) else if a = c then some (a, true) else if b = c then some (b, true) else none

/-- Words that some copy holds as other than zero. -/
def fuseWords (f : Fuses) : List Nat :=
  ((f.mapA ++ f.mapB ++ f.mapC).map (fun e => e.1)).filter (fun w => decide (w < 16384)) |>.eraseDups

def voteAt (f : Fuses) (w : Nat) : Option (Nat × Bool) := voteWord (tblGet 0 f.mapA w) (tblGet 0 f.mapB w) (tblGet 0 f.mapC w)

/-- A voted word; zero where the copies disagree. -/
def votedWord (f : Fuses) (w : Nat) : Nat := ((voteAt f w).getD (0, false)).1

/-- Repair entries: words from 144 up to the first that reads zero. -/
def repairEntries (f : Fuses) : Nat → Nat → List Nat
  | 0, _ => []
  | n + 1, w => if votedWord f w = 0 then [] else votedWord f w :: repairEntries f n (w + 1)

/-- Sites the log names. -/
def loggedSites (s : State) : List Nat := (s.dlog.filter (fun d => d.kind == 0)).map (fun d => d.unit)

/-- FUSE_MAP_READ, stage S2. -/
def fuseMapRead (s : State) : State :=
  if bootGo 2 s = false then s
  else
    let f := s.fuses
    let words := fuseWords f
    let split := words.filter (fun w => (voteAt f w).isNone)
    match split with
    | w :: rest => haltBoot 0x0202 (rest.foldl min w) 0 s
    | [] =>
      let out := (words.filter (fun w => ((voteAt f w).getD (0, false)).2)).length
      let fused := (List.range 4608).filter (fun p => (votedWord f (p / 32)).testBit (p % 32))
      let s := if out = 0 then s else report rPass 0x0201 out 0 [] s
      let bad := (loggedSites s).foldl (fun l p => insertAsc p l) fused
      let s : State := { s with boot := { s.boot with fused := fused, repairs := repairEntries f 16240 144, bad := bad } }
      endStage s

def execFuseMapRead (s : State) : Host.Outcome State Fault Refusal := Host.Outcome.next (fuseMapRead s)

/-! ## S3: waves (R405, R406) -/

/-- The clusters of a wave: one of each field. -/
def waveClusters (w : Nat) : List Nat :=
  (List.range 16).map (fun i => let fr := i / 4; fr * 72 + i % 4 * 18 + (w + 9 * (fr % 2)) % 18)

/-- A cluster that the log keeps in PARK: an entry with PLANNED, or two with trip causes. -/
def clusterHeld (s : State) (cl : Nat) : Bool :=
  let l := s.dlog.filter (fun d => d.kind == 1 && d.unit == cl)
  l.any (fun d => d.cause == 6) || decide (2 ≤ l.length)

def excludeSites (l : List Nat) (s : State) : State :=
  { s with boot := { s.boot with bad := l.foldl (fun b p => insertAsc p b) s.boot.bad } }

/-- A phase that fails against the calibration load is disabled. -/
def bootPhase (cl ph : Nat) (s : State) : State :=
  let ok := getF s (sprPage cl) Spr.phaseOk
  if ok.testBit ph = false then s
  else
    let s := setF (sprPage cl) Spr.healthy (getF s (sprPage cl) Spr.healthy - 1) (setF (sprPage cl) Spr.phaseOk (ok - 2 ^ ph) s)
    let s := setErrBit (sprPage cl) Spr.ePhaseFault (springInfo cl 8 4 ph (addF (sprPage cl) Spr.phaseFltCnt 1 s))
    { s with boot := { s.boot with phases := s.boot.phases + 1, phased := insertAsc cl s.boot.phased } }

/-- A cluster starts: Spring, phases, RBASE, clock and VSET; or it trips and is DARK. -/
def startCluster (r : WaveResult) (s : State) : State :=
  let cl := r.cl.val
  let s := (r.phases.map (fun p => p.val)).foldl (fun s p => bootPhase cl p s) s
  let n := getF s (sprPage cl) Spr.healthy
  let trip := if n ≤ 2 then some 5 else r.trip.map tripCode
  match trip with
  | some cause =>
    let s := setErrBit (sprPage cl) Spr.eTrip (springInfo cl 0 8 cause s)
    let s := excludeSites (clusterSites cl) (logDefect 1 cause 3 cl (springOff cl sprDark s))
    { s with boot := { s.boot with darks := s.boot.darks ++ [(cl, cause)] } }
  | none =>
    let s := if n < 10 then setErrBit (sprPage cl) Spr.ePhaseLimit (setF (sprPage cl) Spr.hwlim (8 * n) s) else s
    let s := setF (sprPage cl) Spr.rbase r.rbase.toNat (setF (sprPage cl) Spr.pgood 1 (setF (sprPage cl) Spr.state sprActive s))
    let s := setF (clkPage cl) Clk.step 10 (setF (clkPage cl) Clk.locked 1 (setF (clkPage cl) Clk.state 1 s))
    let v := fusedV s cl 10
    let s := setF (sprPage cl) Spr.vtgt v (setF (sprPage cl) Spr.vcode v s)
    let s := putClus cl { busyAt := s.now, clkAt := s.now, phases := n, lowAt := s.now } s
    let s := (clusterSites cl).foldl (fun s p =>
      setF (sitePage p) Site.alive 1 { s with hbAt := tblPut 0 s.hbAt p s.now }) s
    showLimit cl s

/-- The reports of S3 after the last wave. -/
def reportWaves (s : State) : State :=
  let b := s.boot
  let s := match b.darks with
    | [] => s
    | d :: _ => report rPass 0x0301 b.darks.length d.2 (b.darks.map (fun e => e.1)) s
  let s := if b.phases = 0 then s else report rPass 0x0302 b.phases 0 b.phased s
  if b.held.isEmpty then s else report rPass 0x0303 b.held.length 0 b.held s

/-- CLUSTER_WAVE, stage S3: one wave, every 200 µs, with what each of its clusters showed. A cluster with no result passes, and its RBASE is free. -/
def clusterWave (res : List WaveResult) (s : State) : State :=
  if bootGo 3 s = false ∨ s.now < s.boot.stageAt + s.boot.wave * 200 * usEdges then s
  else
    let s := (waveClusters s.boot.wave).foldl (fun s cl =>
      if clusterHeld s cl then
        excludeSites (clusterSites cl) { s with boot := { s.boot with held := insertAsc cl s.boot.held } }
      else match res.find? (fun r => r.cl.val == cl) with
        | some r => startCluster r s
        | none =>
          let d := draw s
          if h : cl < 288 then startCluster { cl := ⟨cl, h⟩, trip := none, phases := [], rbase := BitVec.ofNat 16 d.1 } d.2 else s) s
    let s : State := { s with boot := { s.boot with wave := s.boot.wave + 1 } }
    if s.boot.wave < 18 then s else endStage (reportWaves s)

def execClusterWave (res : List WaveResult) (s : State) : Host.Outcome State Fault Refusal := Host.Outcome.next (clusterWave res s)

/-! ## S4: seams, links and signatures (R407) -/

/-- Sites that run at S4: outside dark and held clusters. -/
def siteRuns (s : State) (p : Nat) : Bool := clkState s (clusterOfSite p) == 1

/-- The straight links of a site, as (west or north end, runs south). -/
def straightLinks (p : Nat) : List (Nat × Bool) :=
  (if siteCol p = 0 then [] else [(p - 1, false)]) ++ (if siteCol p = 71 then [] else [(p, false)]) ++
    (if siteRow p = 0 then [] else [(p - 72, true)]) ++ (if siteRow p = 63 then [] else [(p, true)])

/-- The other end of a straight link from its west or north end. -/
def linkEnd (l : Nat × Bool) : Nat := if l.2 then l.1 + 72 else l.1 + 1

/-- The sites whose signatures a site is judged among: itself and its straight neighbours that delivered. -/
def judges (s : State) (failed : List (Nat × Bool)) (p : Nat) : List Nat :=
  p :: ((straightLinks p).filter (fun l => decide (l ∉ failed))).filterMap (fun l =>
    let q := if l.1 = p then linkEnd l else l.1
    if siteRuns s q then some q else none)

/-- A site is bad by R407: its signature is not that of the majority, or nothing of it arrives on two or more straight links. -/
def sigBad (s : State) (sigs : Nat → Nat) (failed : List (Nat × Bool)) (p : Nat) : Bool :=
  let v := (judges s failed p).map sigs
  let most := v.any (fun x => decide (x ≠ sigs p ∧ v.length < 2 * (v.filter (· == x)).length))
  let dead := ((straightLinks p).filter (fun l => decide (l ∈ failed) && siteRuns s l.1 && siteRuns s (linkEnd l))).length
  most || decide (2 ≤ dead)

/-- Sites found bad by a test: excluded, and logged where neither the fuses nor the log marked them (R404). -/
def findBad (cause stage : Nat) (l : List Nat) (s : State) : State :=
  let marked := s.boot.fused ++ loggedSites s
  excludeSites l ((l.filter (fun p => decide (p ∉ marked))).foldl (fun s p => logDefect 0 cause stage p s) s)

/-- Bundles whose spare track a fuse or log entry already uses; another bad track fails their link (R402, R404, R407). -/
def usedBundles (s : State) : List Nat :=
  (s.boot.repairs.filter (fun w => w / 2 ^ 30 == 1)).map (fun w => bitsOf w 12 18) ++ (s.dlog.filter (fun d => d.kind == 2)).map (fun d => d.unit)

/-- SEAM_REPAIR, stage S4: bundles repaired beyond the fuses, signatures that differ from the right one, straight links that fail, skip and diagonal paths that fail, and
edge routers that fail, numbered 0 to 23 north, 24 to 47 south, 48 to 111 west and 112 to 175 east. -/
def seamRepair (bundles : List Nat) (sigs : List (Nat × Nat)) (links : List (Nat × Bool)) (paths : List (Nat × Nat)) (edges : List Nat) (s : State) : State :=
  if bootGo 4 s = false then s
  else
    let sig := fun (p : Nat) => ((sigs.find? (fun e => e.1 == p)).map (fun e => e.2)).getD 0
    let bundles := bundles.filter (fun u => decide (u ∉ usedBundles s))
    let s := bundles.foldl (fun s u => logDefect 2 0x01 4 u s) s
    let bad := (List.range 4608).filter (fun p => siteRuns s p && sigBad s sig links p)
    let ends := (links.filter (fun l => siteRuns s l.1 && siteRuns s (linkEnd l) && decide (l.1 ∉ bad) && decide (linkEnd l ∉ bad))).map linkEnd
    let ends := ends.eraseDups
    let s : State := { s with boot := { s.boot with badPath := paths, badEdge := edges } }
    let s := findBad 0x02 4 ends (findBad 0x03 4 bad s)
    let s := if bundles.isEmpty then s else report rPass 0x0401 bundles.length 0 [] s
    let s := if ends.isEmpty then s else report rPass 0x0402 ends.length 0 ends s
    let s := if bad.isEmpty then s else report rPass 0x0403 bad.length 0 bad s
    endStage (if edges.isEmpty then s else report rPass 0x0404 edges.eraseDups.length 0 [] s)

def execSeamRepair (bundles : List Nat) (sigs : List (SiteId × Word64)) (links : List (SiteId × Bool)) (paths : List (SiteId × SiteId)) (edges : List (Fin 176))
    (s : State) : Host.Outcome State Fault Refusal :=
  Host.Outcome.next (seamRepair bundles (sigs.map (fun e => (e.1.val, e.2.toNat))) (links.map (fun e => (e.1.val, e.2)))
    (paths.map (fun e => (e.1.val, e.2.val))) (edges.map (fun e => e.val)) s)

/-! ## S5: the logical map (R14, R17, R408) -/

/-- A group needs more than one spare: two holes, or the condition of R17. -/
def groupShort (s : State) (row g : Nat) : Bool :=
  decide (2 ≤ (groupHoles s row g).length) ||
    decide (0 < g ∧ siteAt row (9 * g - 1) ∈ s.holes ∧ siteAt row (9 * g) ∈ s.holes)

/-- Plots that some group disables. -/
def shortPlots (s : State) : List Nat :=
  (List.range 32).filter (fun p => (List.range 16).any (fun i => groupShort s (p / 8 * 16 + i) (p % 8)))

/-- The skip path between the routing sites of two neighbouring logical columns, if one is needed. -/
def skipPath (a b : Nat) : List (Nat × Nat) := if b = a + 2 then [(a, b)] else if b = a + 3 then [(a + 1, b)] else []

/-- Skip and diagonal paths that the map needs in plots that are offered. -/
def neededPaths (s : State) : List (Nat × Nat) :=
  let on := fun (c : Nat) => decide (plotOfCore c ∉ s.disabled)
  (List.range 4096).flatMap (fun c =>
    let a := routingSite s c
    (if coreCol c = 63 ∨ (on c = false ∧ on (c + 1) = false) then [] else skipPath a (routingSite s (c + 1))) ++
      (if coreRow c = 63 ∨ (on c = false ∧ on (c + 64) = false) then []
       else if siteCol (routingSite s (c + 64)) = siteCol a then [] else [(a, routingSite s (c + 64))]))

/-- Steps 1 to 3: holes and disabled plots, once more for each site that an unusable path excludes. -/
def placeMap : Nat → State → State
  | 0, s => s
  | n + 1, s =>
    let s : State := { s with holes := s.boot.bad, disabled := [], pinned := [], lost := [] }
    let s : State := { s with disabled := shortPlots s }
    match (neededPaths s).find? (fun e => decide (e ∈ s.boot.badPath)) with
    | none => s
    | some e => placeMap n (findBad 0x02 5 [e.2] s)

/-- The first row with a broken segment and no detour row. -/
def noDetour (s : State) : Option Nat :=
  (List.range 64).find? (fun r => !rowWhole s r && (detourOf s r).isNone)

/-- A run of S5. Answers the code and N1 of a halt, if any. -/
def buildMap (s : State) : Option (Nat × Nat) × State :=
  let s := placeMap 4608 s
  if s.disabled.length = 32 then (some (0x0503, 0), s)
  else
    match noDetour s with
    | some r => (some (0x0502, r / 16), s)
    | none =>
      let s := broadcastPlots (writeMap s)
      (none, if s.disabled.isEmpty then s
        else bootRecord 5 rDegraded 0x0501 (128 * (plotsOffered s).length) 0 (plotMask s) [] s)

/-- A run of S5, and then more, unless it halts. -/
def afterMap (next : State → State) (s : State) : State :=
  let m := buildMap s
  match m.1 with
  | some e => haltBoot e.1 e.2 0 m.2
  | none => next m.2

def execMapBuild (s : State) : Host.Outcome State Fault Refusal :=
  Host.Outcome.next (if bootGo 5 s then afterMap endStage s else s)

/-! ## S6 to S10 -/

/-- RUNTIME_IMAGE_BROADCAST, stage S6: sites whose digest check failed twice are excluded, and S5 runs again (R409). FORCE_MIN_N that is low applies from S7 on. -/
def imageBroadcast (fails : List Nat) (s : State) : State :=
  if bootGo 6 s = false then s
  else
    let bad := fails.filter (fun p => decide (p ∉ s.boot.bad))
    let done := fun (s : State) => forceHeld (endStage s)
    if bad.isEmpty then done s
    else afterMap done (report rPass 0x0601 bad.length 0 bad (findBad 0x01 6 bad s))

def execRuntimeImageBroadcast (fails : List SiteId) (s : State) : Host.Outcome State Fault Refusal :=
  Host.Outcome.next (imageBroadcast (fails.map (fun p => p.val)) s)

/-- S7 ends: every site in service is scrubbed, and the cores of plots not disabled leave OFF for IDLE. -/
def mapIn (s : State) : State :=
  let live := (List.range 4096).filter (fun c => decide (plotOfCore c ∉ s.disabled))
  { memZero 0 mereBase s with cores := live.map (fun c => (c, { scrubbedCore with mode := .idle })) }

/-- KNOWN_ANSWER_RUN, stage S7: the sites that fail a pass. The first failing pass runs S5 and one more pass; after the second, S5 only (R410). -/
def knownAnswer (fails : List Nat) (s : State) : State :=
  if bootGo 7 s = false then s
  else
    let bad := fails.filter (fun p => decide (p ∉ s.boot.bad))
    let done := fun (s : State) => endStage (mapIn s)
    if bad.isEmpty then done s
    else if s.boot.passes = 0 then
      let s := report rRepeat 0x0701 bad.length 0 bad (findBad 0x01 7 bad s)
      let s : State := { s with boot := { s.boot with passes := 1 } }
      afterMap (fun s => s) (setF bupPage Bup.repeatBit 1 s)
    else afterMap done (report rPass 0x0702 bad.length 0 bad (findBad 0x02 7 bad s))

def execKnownAnswerRun (fails : List SiteId) (s : State) : Host.Outcome State Fault Refusal :=
  Host.Outcome.next (knownAnswer (fails.map (fun p => p.val)) s)

/-- Channels in service. -/
def chanCount (s : State) : Nat := ((List.range 192).filter (fun i => mcState s i != mcRetired)).length

/-- S8 ends with the fill: its report of retired channels; more than 16 halt (R251, R411). -/
def endMere (s : State) : State :=
  let out := (List.range 192).filter (fun i => mcState s i == mcRetired)
  let n := 192 - out.length
  let s := if out.isEmpty then s else report rDegraded 0x0801 n 0 out s
  if 16 < out.length then haltBoot 0x0802 n 0 s else endStage s

/-- MERE_ZERO_FILL: every block of every active channel zero, with valid check bits and no poison; stage S8 ends. -/
def execMereZeroFill (s : State) : Host.Outcome State Fault Refusal :=
  Host.Outcome.next (if bootGo 8 s ∧ trained s then endMere (zeroFill s) else s)

/-- Interfaces up. -/
def ifcsUp (s : State) : List Nat := (List.range 4).filter (fun i => decide (ifHold ≤ (getIfc s i).state))

/-- ETHERNET_BRING_UP, stage S9: the ports are configured and begin to train; the stage ends once every interface is up, or 5,000 ms later. -/
def ethernetBringUp (s : State) : State :=
  if bootGo 9 s = false then s
  else if s.boot.linking = false then startPorts { s with boot := { s.boot with linking := true } }
  else
    let all := (List.range 4).filter (ifcPresent s)
    let up := ifcsUp s
    if all.all (fun i => decide (i ∈ up)) = false ∧ s.now < s.boot.stageAt + 5000 * msEdges then s
    else if all.all (fun i => decide (i ∈ up)) then endStage s
    else if up.isEmpty then endStage (report rPass 0x0902 0 0 [] s)
    else endStage (bootRecord 9 rPass 0x0901 0 0 (up.foldl (fun m i => m + 2 ^ i) 0) [] s)

def execEthernetBringUp (s : State) : Host.Outcome State Fault Refusal := Host.Outcome.next (ethernetBringUp s)

/-- A trial boot is confirmed; fuses advance to the image's SVN and a vendor slot is revoked where its flags ask (R447, R470). -/
def confirmTrial (s : State) : State :=
  if s.flash.trial = false then s
  else
    let img := runningImage s
    let flags := bNat img 0x11 1
    let svn := bNat img 0x10 1
    let f := s.fuses
    let f := if flags.testBit 0 ∧ f.svn < svn then { f with svn := min 64 svn } else f
    let d := draw s
    let other := d.1 % 2
    let rev := (if flags.testBit 1 then 2 ^ other else 0) ||| (if flags.testBit 2 then 2 ^ (2 + other) else 0)
    let s := setF prvPage Prv.trial 0 d.2
    { s with fuses := { f with revoked := f.revoked ||| rev }, flash := { s.flash with trial := false, trials := 0 } }

/-- READY_STAGE, stage S10: PWR_GOOD, BOOT_STAT and the READY record; Privet's loops begin. FORCE_MIN_N that is still low applies again (R532). -/
def readyStage (s : State) : State :=
  if bootGo 10 s = false then s
  else
    let n := (plotsOffered s).length
    let nc := chanCount s
    let soft : Bool := decide (n < 32) || decide (nc < 192)
    let s := bootRecord 10 (if soft then rDegraded else rPass) 0x0A01 (128 * n) nc (plotMask s) [] s
    let s := summary (if soft then rDegraded else rPass) s
    let s := setF bupPage Bup.code 0x0A01 (setF bupPage Bup.state (if soft then 2 else 1) s)
    let s := confirmTrial (setF prvPage Prv.state 1 s)
    let s : State := { s with pwr := { s.pwr with pwrGood := true, decided := s.now, epochAt := s.now } }
    forceHeld s

def execReadyStage (s : State) : Host.Outcome State Fault Refusal := Host.Outcome.next (readyStage s)

end Sys2Proof.Machine
end

