-- ==== Sys2Proof/Machine/CoreScalar.lean ====
section
/-!
DEFINITION. Control and scalar instructions, by R108, R109 and R131.
-/
namespace Sys2Proof.Machine

/-- The second operand of the ALU operations: RB, or the sign-extended IMM when MOD [0] is 1 (R108). -/
def aluSrc (w : IWord) (k : Core) : Word64 := if fMod w % 2 = 1 then fImmS w else sreg k (fRb w)

/-- An ALU instruction. MOD is 0 or 1; with MOD 0 the IMM is unused and with MOD 1 the RB field is (R106, R107). -/
def alu (c : Nat) (w : IWord) (lat : Nat) (f : Word64 → Word64 → Word64) (s : State) : State :=
  let imm := fMod w % 2 = 1
  issue c (if imm then [pRd, pRa, pMod, pImm] else [pRd, pRa, pRb, pMod]) (if imm then [fRa w] else [fRa w, fRb w]) w
    (fun k s =>
      if 1 < fMod w then coreFault c k.pc 0x21 s
      else retire c (writeS (fRd w) (f (sreg k (fRa w)) (aluSrc w k)) lat k) s) s (fRd w)

/-- The shift amount: bits [5:0] of the second operand. -/
def shiftAmt (y : Word64) : Nat := y.toNat % 64

def execNop (c : CoreId) (w : IWord) (s : State) : Host.Outcome State Fault Refusal :=
  Issued 7 0x00 c w s (Next (issue c [] [] w (fun k s => retire c k s) s))

def execAdd (c : CoreId) (w : IWord) (s : State) : Host.Outcome State Fault Refusal :=
  Issued 7 0x01 c w s (Next (alu c w aluLat (fun x y => x + y) s))

def execSub (c : CoreId) (w : IWord) (s : State) : Host.Outcome State Fault Refusal :=
  Issued 7 0x02 c w s (Next (alu c w aluLat (fun x y => x - y) s))

def execAnd (c : CoreId) (w : IWord) (s : State) : Host.Outcome State Fault Refusal :=
  Issued 7 0x03 c w s (Next (alu c w aluLat (fun x y => x &&& y) s))

def execOr (c : CoreId) (w : IWord) (s : State) : Host.Outcome State Fault Refusal :=
  Issued 7 0x04 c w s (Next (alu c w aluLat (fun x y => x ||| y) s))

def execXor (c : CoreId) (w : IWord) (s : State) : Host.Outcome State Fault Refusal :=
  Issued 7 0x05 c w s (Next (alu c w aluLat (fun x y => x ^^^ y) s))

def execShl (c : CoreId) (w : IWord) (s : State) : Host.Outcome State Fault Refusal :=
  Issued 7 0x06 c w s (Next (alu c w aluLat (fun x y => x <<< shiftAmt y) s))

def execShr (c : CoreId) (w : IWord) (s : State) : Host.Outcome State Fault Refusal :=
  Issued 7 0x07 c w s (Next (alu c w aluLat (fun x y => x >>> shiftAmt y) s))

def execSra (c : CoreId) (w : IWord) (s : State) : Host.Outcome State Fault Refusal :=
  Issued 7 0x08 c w s (Next (alu c w aluLat (fun x y => x.sshiftRight (shiftAmt y)) s))

def execMul (c : CoreId) (w : IWord) (s : State) : Host.Outcome State Fault Refusal :=
  Issued 7 0x09 c w s (Next (alu c w mulLat (fun x y => x * y) s))

def execSlt (c : CoreId) (w : IWord) (s : State) : Host.Outcome State Fault Refusal :=
  Issued 7 0x0A c w s (Next (alu c w aluLat (fun x y => if x.slt y then 1 else 0) s))

def execSltu (c : CoreId) (w : IWord) (s : State) : Host.Outcome State Fault Refusal :=
  Issued 7 0x0B c w s (Next (alu c w aluLat (fun x y => if x.ult y then 1 else 0) s))

def execLi (c : CoreId) (w : IWord) (s : State) : Host.Outcome State Fault Refusal :=
  Issued 7 0x0C c w s (Next (issue c [pRd, pImm] [] w (fun k s => retire c (writeS (fRd w) (fImmS w) aluLat k) s) s (fRd w)))

def execLih (c : CoreId) (w : IWord) (s : State) : Host.Outcome State Fault Refusal :=
  Issued 7 0x0D c w s (Next (issue c [pRd, pRa, pImm] [fRa w] w (fun k s =>
    retire c (writeS (fRd w) (BitVec.ofNat 64 (fImm w * 2 ^ 32 + (sreg k (fRa w)).toNat % 2 ^ 32)) aluLat k) s) s (fRd w)))

/-- The ring latency of a load at a scratchpad offset (R140). -/
def ringLat (off : Nat) : Nat :=
  let o := off % 2048
  if o < 0x200 then 4 else if o < 0x600 then 7 else 11

/-- The latency of a load of `n` bytes: the farthest ring it touches (R140). -/
def loadLat (off n : Nat) : Nat := max (ringLat off) (ringLat (off + n - 1))

/-- Waits while eight loads are outstanding (R101). -/
def waitLoads (k : Core) : Core :=
  let live := k.loads.filter (fun t => decide (k.cyc < t))
  if 8 ≤ live.length then
    let t := live.foldl min (live.headD k.cyc)
    { k with cyc := t, hold := k.hold + (t - k.cyc), loads := live.filter (fun x => decide (t < x)) }
  else { k with loads := live }

/-- The checks of a scalar or vector access: alignment, then the scratchpad's bounds (causes 0x22 and 0x23). -/
def accessCause (addr align n : Nat) : Option Nat :=
  if addr % align ≠ 0 then some 0x22 else if spmSize < addr + n then some 0x23 else none

/-- The address of a load or store: a base register plus the signed IMM. -/
def lsAddr (k : Core) (r : Nat) (w : IWord) : Nat := (sreg k r + fImmS w).toNat

/-- A scalar load of `n` bytes, zero-extended. -/
def load (c : Nat) (w : IWord) (n : Nat) (s : State) : State :=
  issue c [pRd, pRa, pImm] [fRa w] w (fun k s =>
    let a := lsAddr k (fRa w) w
    match accessCause a n n with
    | some cause => coreFault c k.pc cause s
    | none =>
      let r := spmRead c a n s
      if r.2.1 then r.2.2
      else
        let k := waitLoads k
        let k := { k with loads := k.loads ++ [k.cyc + loadLat a n] }
        retire c (writeS (fRd w) (BitVec.ofNat 64 (leNat r.1)) (loadLat a n) k) r.2.2) s (fRd w)

/-- A scalar store of `n` low bytes of RB. Stores retire at issue (R140). -/
def store (c : Nat) (w : IWord) (n : Nat) (s : State) : State :=
  issue c [pRa, pRb, pImm] [fRa w, fRb w] w (fun k s =>
    let a := lsAddr k (fRa w) w
    match accessCause a n n with
    | some cause => coreFault c k.pc cause s
    | none => retire c k (spmWrite c a (leBytes n (sreg k (fRb w)).toNat) s)) s

def execLd (c : CoreId) (w : IWord) (s : State) : Host.Outcome State Fault Refusal :=
  Issued 7 0x0E c w s (Next (load c w 8 s))
def execLdw (c : CoreId) (w : IWord) (s : State) : Host.Outcome State Fault Refusal :=
  Issued 7 0x0F c w s (Next (load c w 4 s))
def execSt (c : CoreId) (w : IWord) (s : State) : Host.Outcome State Fault Refusal :=
  Issued 7 0x10 c w s (Next (store c w 8 s))
def execStw (c : CoreId) (w : IWord) (s : State) : Host.Outcome State Fault Refusal :=
  Issued 7 0x11 c w s (Next (store c w 4 s))

/-- A relative target: PC + 8 × IMM. -/
def relTarget (k : Core) (w : IWord) : Int := (k.pc : Int) + 8 * (fImmS w).toInt

/-- A taken transfer to `t`, or cause 0x24. -/
def transfer (c : Nat) (t : Int) (k : Core) (s : State) (upd : Core → Core) : State :=
  if 0 ≤ t ∧ goodTarget t.toNat = true then putCore c (jump t.toNat (upd k)) s else coreFault c k.pc 0x24 s

/-- A conditional branch. -/
def branch (c : Nat) (w : IWord) (cond : Word64 → Word64 → Bool) (s : State) : State :=
  issue c [pRa, pRb, pImm] [fRa w, fRb w] w (fun k s =>
    if cond (sreg k (fRa w)) (sreg k (fRb w)) then transfer c (relTarget k w) k s id else retire c k s) s

def execBeq (c : CoreId) (w : IWord) (s : State) : Host.Outcome State Fault Refusal :=
  Issued 7 0x12 c w s (Next (branch c w (fun x y => x == y) s))
def execBne (c : CoreId) (w : IWord) (s : State) : Host.Outcome State Fault Refusal :=
  Issued 7 0x13 c w s (Next (branch c w (fun x y => x != y) s))
def execBlt (c : CoreId) (w : IWord) (s : State) : Host.Outcome State Fault Refusal :=
  Issued 7 0x14 c w s (Next (branch c w (fun x y => x.slt y) s))
def execBge (c : CoreId) (w : IWord) (s : State) : Host.Outcome State Fault Refusal :=
  Issued 7 0x15 c w s (Next (branch c w (fun x y => !(x.slt y)) s))

def execJal (c : CoreId) (w : IWord) (s : State) : Host.Outcome State Fault Refusal :=
  Issued 7 0x16 c w s (Next (issue c [pRd, pImm] [] w (fun k s =>
    transfer c (relTarget k w) k s (fun k => writeS (fRd w) (BitVec.ofNat 64 (k.pc + 8)) aluLat k)) s (fRd w)))

def execJr (c : CoreId) (w : IWord) (s : State) : Host.Outcome State Fault Refusal :=
  Issued 7 0x17 c w s (Next (issue c [pRa] [fRa w] w (fun k s => transfer c ((sreg k (fRa w)).toNat : Int) k s id) s))

/-- LOOP of R109: the level is pushed, or with RA = 0 the body is skipped at the cost of a taken branch. -/
def execLoop (c : CoreId) (w : IWord) (s : State) : Host.Outcome State Fault Refusal :=
  Issued 7 0x18 c w s (Next (issue c [pRa, pImm] [fRa w] w (fun k s =>
    let stop := k.pc + 8 + 8 * fImm w
    let inner : Bool := match k.loops with
      | [] => true
      | l :: _ => decide (stop ≤ l.stop)
    if 4 ≤ k.loops.length ∨ fImm w = 0 ∨ 4096 < fImm w ∨ inner = false then coreFault c k.pc 0x25 s
    else if sreg k (fRa w) = 0 then
      let r := loopStep stop k.loops
      putCore c { k with pc := r.1, loops := r.2, cyc := k.cyc + 3 } s
    else
      let k := { k with loops := ⟨k.pc + 8, stop, (sreg k (fRa w)).toNat⟩ :: k.loops }
      putCore c { k with pc := k.pc + 8, cyc := k.cyc + 1 } s) s))

/-- WAITC: the next instruction issues RA + IMM local cycles later, and never sooner than one. -/
def execWaitc (c : CoreId) (w : IWord) (s : State) : Host.Outcome State Fault Refusal :=
  Issued 7 0x19 c w s (Next (issue c [pRa, pImm] [fRa w] w (fun k s =>
    let n := (sreg k (fRa w)).toNat + fImm w
    retire c { k with cyc := k.cyc + (max 1 n - 1) } s) s))

/-- RDCYC, by R131: 48 bits. -/
def execRdcyc (c : CoreId) (w : IWord) (s : State) : Host.Outcome State Fault Refusal :=
  Issued 7 0x1A c w s (Next (issue c [pRd] [] w (fun k s => retire c (writeS (fRd w) (BitVec.ofNat 64 (k.cyc % 2 ^ 48)) aluLat k) s) s (fRd w)))

/-- The value RDID reads: logical core ID, Hedge ID, and the core's logical row and column within the Hedge. -/
def rdidValue (s : State) (c : Nat) : Nat :=
  let h := (hedgeOfCore s c).getD 0
  let k := getHedge s h
  c + h * 2 ^ 12 + (coreRow c - k.plot / 8 * 16) * 2 ^ 32 + (coreCol c - k.plot % 8 * 8) * 2 ^ 40

def execRdid (c : CoreId) (w : IWord) (s : State) : Host.Outcome State Fault Refusal :=
  Issued 7 0x1B c w s (Next (issue c [pRd] [] w (fun k s => retire c (writeS (fRd w) (BitVec.ofNat 64 (rdidValue s c)) aluLat k) s) s (fRd w)))

end Sys2Proof.Machine
end

