-- ==== Sys2Proof/Machine/CoreVector.lean ====
section
/-!
DEFINITION. The vector unit, by R110 to R115.
-/
namespace Sys2Proof.Machine

/-! ## Types and lanes -/

/-- The types a VEC instruction or a VCVT destination may name (R110). -/
def vecType (code : Nat) : Option Fmt :=
  match fmtOf code with
  | some .e4m3 => some .e4m3
  | some .e5m2 => some .e5m2
  | some .bf16 => some .bf16
  | some .fp16 => some .fp16
  | some .fp32 => some .fp32
  | some .int8 => some .int8
  | some .int32 => some .int32
  | _ => none

/-- Types with arithmetic: every type of R110 but the two FP8 formats. -/
def vecArith (code : Nat) : Option Fmt :=
  match vecType code with
  | some .e4m3 | some .e5m2 => none
  | t => t

/-- Types with transcendentals (R113). -/
def vecTrans (code : Nat) : Option Fmt :=
  match vecType code with
  | some .bf16 => some .bf16
  | some .fp16 => some .fp16
  | some .fp32 => some .fp32
  | _ => none

/-- Lanes of a type in a 256 B register. -/
def laneCount (f : Fmt) : Nat := 256 / fmtBytes f

/-- Lanes an instruction acts on: min(VL, L). -/
def active (k : Core) (f : Fmt) : Nat := min k.vl (laneCount f)

/-- Lane `i` of vector register `r`. -/
def lane (k : Core) (f : Fmt) (r i : Nat) : Nat :=
  leNat ((List.range (fmtBytes f)).map (fun b => tblGet 0 k.vregs (256 * r + fmtBytes f * i + b)))

/-- Writes bytes of a vector register file. -/
def putVBytes (v : Tbl Byte) (a : Nat) : List Byte → Tbl Byte
  | [] => v
  | b :: t => putVBytes (tblPut 0 v a b) (a + 1) t

/-- Writes lane `i` of vector register `r`. -/
def putLane (f : Fmt) (r i code : Nat) (k : Core) : Core :=
  { k with vregs := putVBytes k.vregs (256 * r + fmtBytes f * i) (leBytes (fmtBytes f) code) }

/-- Writes consecutive lanes from `i` up. -/
def putLanes (f : Fmt) (r : Nat) : Nat → List Nat → Core → Core
  | _, [], k => k
  | i, x :: t, k => putLanes f r (i + 1) t (putLane f r i x k)

/-- Result latencies of R101. -/
def vecLat : Nat := 4
def transLat : Nat := 12
def reduceLat : Nat := 10

/-- A vector result of n lanes, readable `lat` local cycles from issue; a register written whole holds no damage (R100). -/
def readyV (f : Fmt) (n r lat : Nat) (k : Core) : Core :=
  { k with ready := tblPut 0 k.ready (32 + r) (k.cyc + lat), regBad := if laneCount f ≤ n then tblErase (32 + r) k.regBad else k.regBad }

/-- The value of a lane's code: floats decoded, integers exact. -/
def laneVal (f : Fmt) (code : Nat) : Num :=
  if fmtIsInt f then numOfInt (signedOf (fmtWidth f) code) else fdecode (fspec f) code

/-- The code an arithmetic result takes in its lane: floats rounded once, integers wrapped (R110, R112). -/
def laneRound (f : Fmt) (x : Num) : Nat × Nat :=
  if fmtIsInt f then (unsignedOf (fmtWidth f) (numToInt x), 0) else fround (fspec f) false x

/-! ## Lane-wise instructions -/

/-- An instruction over the active lanes with sources VA, VB and perhaps VC and VD as destination: `op` gives each lane's code and
flags from its sources' codes. -/
def lanewise (c : Nat) (w : IWord) (ty : Nat → Option Fmt) (three : Bool) (op : Fmt → Nat → Nat → Nat → Nat × Nat) (s : State) : State :=
  issue c (if three then [pRd, pRa, pRb, pRc, pMod] else [pRd, pRa, pRb, pMod])
    (if three then [32 + fRa w, 32 + fRb w, 32 + fRc w] else [32 + fRa w, 32 + fRb w]) w
    (fun k s =>
      match ty (fMod w) with
      | none => coreFault c k.pc 0x21 s
      | some f =>
        let rs := (List.range (active k f)).map (fun i => op f (lane k f (fRa w) i) (lane k f (fRb w) i) (lane k f (fRc w) i))
        retire c (readyV f rs.length (fRd w) vecLat (putLanes f (fRd w) 0 (rs.map Prod.fst) k)) (raiseVec c (flagsOf rs) s)) s

/-- Addition, subtraction and multiplication of two lane values; INVALID as R60 gives for an operation without a result. -/
def opAdd (f : Fmt) (a b _ : Nat) : Nat × Nat :=
  let r := numSum [laneVal f a, laneVal f b]
  let q := laneRound f r.1
  (q.1, r.2 ||| q.2)

/-- The value with its sign changed. -/
def numNeg : Num → Num
  | .nan => .nan
  | .inf s => .inf (!s)
  | .fin s m e => .fin (!s) m e

def opSub (f : Fmt) (a b _ : Nat) : Nat × Nat :=
  let r := numSum [laneVal f a, numNeg (laneVal f b)]
  let q := laneRound f r.1
  (q.1, r.2 ||| q.2)

def opMul (f : Fmt) (a b _ : Nat) : Nat × Nat :=
  let r := numMul (laneVal f a) (laneVal f b)
  let q := laneRound f r.1
  (q.1, r.2 ||| q.2)

/-- VA × VB + VC with one rounding. -/
def opFma (f : Fmt) (a b d : Nat) : Nat × Nat :=
  let p := numMul (laneVal f a) (laneVal f b)
  let r := numSum [p.1, laneVal f d]
  let q := laneRound f r.1
  (q.1, p.2 ||| r.2 ||| q.2)

/-- VMIN and VMAX (R112): a number beats a NaN, VA wins a tie, two NaNs give the canonical NaN. -/
def opPick (lt : Num → Num → Bool) (f : Fmt) (a b _ : Nat) : Nat × Nat :=
  let x := laneVal f a
  let y := laneVal f b
  if numIsNan x ∧ numIsNan y then ((fspec f).nan, flagNanOut)
  else if numIsNan x then (b, 0)
  else if numIsNan y then (a, 0)
  else if lt y x then (b, 0) else (a, 0)

/-- The low bits of VB that name a shift: as many as the lane's width needs. -/
def laneShift (f : Fmt) (b : Nat) : Nat := b % fmtWidth f

/-- All ones or all zeros in a lane. -/
def laneBool (f : Fmt) (b : Bool) : Nat × Nat := (if b then 2 ^ fmtWidth f - 1 else 0, 0)

/-- Numeric equality of two values that are not NaN. -/
def numEq (x y : Num) : Bool := !numIsNan x && !numIsNan y && !numLt x y && !numLt y x

def execVadd (c : CoreId) (w : IWord) (s : State) : Host.Outcome State Fault Refusal :=
  Issued 1 0x01 c w s (Next (lanewise c w vecArith false opAdd s))
def execVsub (c : CoreId) (w : IWord) (s : State) : Host.Outcome State Fault Refusal :=
  Issued 1 0x02 c w s (Next (lanewise c w vecArith false opSub s))
def execVmul (c : CoreId) (w : IWord) (s : State) : Host.Outcome State Fault Refusal :=
  Issued 1 0x03 c w s (Next (lanewise c w vecArith false opMul s))
def execVfma (c : CoreId) (w : IWord) (s : State) : Host.Outcome State Fault Refusal :=
  Issued 1 0x04 c w s (Next (lanewise c w vecArith true opFma s))
def execVmin (c : CoreId) (w : IWord) (s : State) : Host.Outcome State Fault Refusal :=
  Issued 1 0x05 c w s (Next (lanewise c w vecArith false (opPick numLt) s))
def execVmax (c : CoreId) (w : IWord) (s : State) : Host.Outcome State Fault Refusal :=
  Issued 1 0x06 c w s (Next (lanewise c w vecArith false (opPick (fun x y => numLt y x)) s))
def execVand (c : CoreId) (w : IWord) (s : State) : Host.Outcome State Fault Refusal :=
  Issued 1 0x07 c w s (Next (lanewise c w vecArith false (fun _ a b _ => (a &&& b, 0)) s))
def execVor (c : CoreId) (w : IWord) (s : State) : Host.Outcome State Fault Refusal :=
  Issued 1 0x08 c w s (Next (lanewise c w vecArith false (fun _ a b _ => (a ||| b, 0)) s))
def execVxor (c : CoreId) (w : IWord) (s : State) : Host.Outcome State Fault Refusal :=
  Issued 1 0x09 c w s (Next (lanewise c w vecArith false (fun _ a b _ => (a ^^^ b, 0)) s))
def execVshl (c : CoreId) (w : IWord) (s : State) : Host.Outcome State Fault Refusal :=
  Issued 1 0x0A c w s (Next (lanewise c w vecArith false (fun f a b _ => (a * 2 ^ laneShift f b % 2 ^ fmtWidth f, 0)) s))
def execVshra (c : CoreId) (w : IWord) (s : State) : Host.Outcome State Fault Refusal :=
  Issued 1 0x0B c w s (Next (lanewise c w vecArith false (fun f a b _ =>
    (unsignedOf (fmtWidth f) (signedOf (fmtWidth f) a / 2 ^ laneShift f b), 0)) s))
def execVshrl (c : CoreId) (w : IWord) (s : State) : Host.Outcome State Fault Refusal :=
  Issued 1 0x0C c w s (Next (lanewise c w vecArith false (fun f a b _ => (a / 2 ^ laneShift f b, 0)) s))
def execVcmpeq (c : CoreId) (w : IWord) (s : State) : Host.Outcome State Fault Refusal :=
  Issued 1 0x0D c w s (Next (lanewise c w vecArith false (fun f a b _ => laneBool f (numEq (laneVal f a) (laneVal f b))) s))
def execVcmplt (c : CoreId) (w : IWord) (s : State) : Host.Outcome State Fault Refusal :=
  Issued 1 0x0E c w s (Next (lanewise c w vecArith false (fun f a b _ => laneBool f (numLt (laneVal f a) (laneVal f b))) s))
def execVsel (c : CoreId) (w : IWord) (s : State) : Host.Outcome State Fault Refusal :=
  Issued 1 0x0F c w s (Next (lanewise c w vecArith true (fun _ a b m => (if m ≠ 0 then a else b, 0)) s))

/-! ## VCVT, by R112 -/

/-- One element converted from `f` to `g`. -/
def convElem (sat : Bool) (f g : Fmt) (code : Nat) : Nat × Nat :=
  match fmtIsInt f, fmtIsInt g with
  | true, true => satInt (fmtWidth g) (signedOf (fmtWidth f) code)
  | true, false => fround (fspec g) sat (numOfInt (signedOf (fmtWidth f) code))
  | false, false => fround (fspec g) sat (fdecode (fspec f) code)
  | false, true =>
    match fdecode (fspec f) code with
    | .nan => (0, flagInvalid)
    | .inf true => (unsignedOf (fmtWidth g) (-(2 ^ (fmtWidth g - 1))), flagSaturate)
    | .inf false => (unsignedOf (fmtWidth g) (2 ^ (fmtWidth g - 1) - 1), flagSaturate)
    | x => satInt (fmtWidth g) (numToInt x)

/-- The moves of a VCVT: pairs (source lane, destination lane) for the elements whose lane in the register with more lanes is
below VL. -/
def convMoves (vl la lb part : Nat) : List (Nat × Nat) :=
  let n := min la lb
  (List.range n).filterMap (fun e =>
    let wide := n * part + e
    if vl ≤ wide then none
    else if la < lb then some (e, wide) else some (wide, e))

def execVcvt (c : CoreId) (w : IWord) (s : State) : Host.Outcome State Fault Refusal :=
  Issued 1 0x10 c w s (Next (issue c [pRd, pRa, pMod, (0, 4), (4, 2), (8, 1)] [32 + fRa w] w (fun k s =>
    match vecType (fMod w), vecType (wf w 0 4) with
    | some f, some g =>
      let la := laneCount f
      let lb := laneCount g
      let part := wf w 4 2
      if max la lb / min la lb ≤ part then coreFault c k.pc 0x21 s
      else
        let rs := (convMoves k.vl la lb part).map (fun m => (m.2, convElem (wf w 8 1 == 1) f g (lane k f (fRa w) m.1)))
        let k := rs.foldl (fun k r => putLane g (fRd w) r.1 r.2.1 k) k
        retire c (readyV g rs.length (fRd w) vecLat k) (raiseVec c (flagsOf (rs.map Prod.snd)) s)
    | _, _ => coreFault c k.pc 0x21 s) s))

/-! ## Transcendentals, by R113 -/

/-- An FP32 result in the lane's own format: BF16 and FP16 are computed in FP32 and rounded once. -/
def transLane (f : Fmt) (r : Nat × Nat) : Nat × Nat :=
  match f with
  | .fp32 => r
  | _ => let q := fround (fspec f) false (fdecode (fspec .fp32) r.1); (q.1, r.2 ||| q.2)

/-- A transcendental over the active lanes: each lane draws its own free value for the error the rule leaves open. -/
def transcend (c : Nat) (w : IWord) (fn : Nat → Num → Nat × Nat) (s : State) : State :=
  issue c [pRd, pRa, pMod] [32 + fRa w] w (fun k s =>
    match vecTrans (fMod w) with
    | none => coreFault c k.pc 0x21 s
    | some f =>
      let n := active k f
      let rs := (List.range n).map (fun i =>
        transLane f (fn (Config.freeNat (s.freeCtr + i)) (laneVal f (lane k f (fRa w) i))))
      retire c (readyV f n (fRd w) transLat (putLanes f (fRd w) 0 (rs.map Prod.fst) k))
        (raiseVec c (flagsOf rs) { s with freeCtr := s.freeCtr + n })) s

def execVexp2 (c : CoreId) (w : IWord) (s : State) : Host.Outcome State Fault Refusal :=
  Issued 1 0x11 c w s (Next (transcend c w exp2Code s))
def execVlog2 (c : CoreId) (w : IWord) (s : State) : Host.Outcome State Fault Refusal :=
  Issued 1 0x12 c w s (Next (transcend c w log2Code s))
def execVrsqrt (c : CoreId) (w : IWord) (s : State) : Host.Outcome State Fault Refusal :=
  Issued 1 0x13 c w s (Next (transcend c w rsqrtCode s))

/-! ## Reductions, by R114 -/

def execVrsum (c : CoreId) (w : IWord) (s : State) : Host.Outcome State Fault Refusal :=
  Issued 1 0x14 c w s (Next (issue c [pRd, pRa, pMod] [32 + fRa w] w (fun k s =>
    match vecArith (fMod w) with
    | none => coreFault c k.pc 0x21 s
    | some f =>
      let xs := (List.range (active k f)).map (fun i => lane k f (fRa w) i)
      let empty := if xs.isEmpty then flagEmpty else 0
      if fmtIsInt f then
        let sum := xs.foldl (fun a x => a + signedOf (fmtWidth f) x) 0
        retire c (writeS (fRd w) (BitVec.ofInt 64 sum) reduceLat k) (raiseVec c empty s)
      else
        let r := (xs.map (fun x => daOfFmt f x)).foldl daAddF (0, 0)
        let nan := if numIsNan (daVal r.1) then flagNanOut else 0
        retire c (writeS (fRd w) (BitVec.ofNat 64 (daContainer r.1)) reduceLat k) (raiseVec c (r.2 ||| nan ||| empty) s)) s (fRd w)))

/-- The value an empty maximum or minimum returns (R58, R114). -/
def emptyPick (f : Fmt) (isMax : Bool) : Nat :=
  if fmtIsInt f then (if isMax then 2 ^ (fmtWidth f - 1) else 2 ^ (fmtWidth f - 1) - 1)
  else match (fspec f).inf with
    | some i => withSign (fspec f) isMax i
    | none => (fspec f).nan

/-- VRMAX and VRMIN: the winner's bits and its index (R59, R114). -/
def reducePick (c : Nat) (w : IWord) (isMax : Bool) (s : State) : State :=
  issue c [pRd, pRa, pRb, pMod] [32 + fRa w, fRb w] w (fun k s =>
    match vecArith (fMod w) with
    | none => coreFault c k.pc 0x21 s
    | some f =>
      let base := (sreg k (fRb w)).toNat
      let xs := (List.range (active k f)).map (fun i =>
        (laneVal f (lane k f (fRa w) i), lane k f (fRa w) i, (base + i) % 2 ^ 32))
      let r := xs.foldl (if isMax then maxPick else minPick) (.nan, emptyPick f isMax, 0xFFFFFFFF)
      let nan : Bool := !xs.isEmpty && numIsNan r.1
      let code := if nan then (fspec f).nan else r.2.1
      let fl := (if xs.isEmpty then flagEmpty else 0) ||| (if nan then flagNanOut else 0)
      retire c (writeS (fRd w) (BitVec.ofNat 64 (code + r.2.2 * 2 ^ 32)) reduceLat k) (raiseVec c fl s)) s (fRd w)

def execVrmax (c : CoreId) (w : IWord) (s : State) : Host.Outcome State Fault Refusal :=
  Issued 1 0x15 c w s (Next (reducePick c w true s))
def execVrmin (c : CoreId) (w : IWord) (s : State) : Host.Outcome State Fault Refusal :=
  Issued 1 0x16 c w s (Next (reducePick c w false s))

/-! ## Moves -/

/-- VLD loads every lane, whatever VL. -/
def execVld (c : CoreId) (w : IWord) (s : State) : Host.Outcome State Fault Refusal :=
  Issued 1 0x17 c w s (Next (issue c [pRd, pRa, pMod, pImm] [fRa w] w (fun k s =>
    let a := lsAddr k (fRa w) w
    match vecType (fMod w), accessCause a 64 256 with
    | none, _ => coreFault c k.pc 0x21 s
    | some _, some cause => coreFault c k.pc cause s
    | some _, none =>
      let r := spmRead c a 256 s
      if r.2.1 then r.2.2
      else
        let k := waitLoads k
        let k := { k with loads := k.loads ++ [k.cyc + loadLat a 256] }
        retire c (readyV .int8 256 (fRd w) (loadLat a 256) { k with vregs := putVBytes k.vregs (256 * fRd w) r.1 }) r.2.2) s))

/-- VST stores the active lanes; the bytes of inactive lanes are not written. -/
def execVst (c : CoreId) (w : IWord) (s : State) : Host.Outcome State Fault Refusal :=
  Issued 1 0x18 c w s (Next (issue c [pRa, pRb, pMod, pImm] [32 + fRa w, fRb w] w (fun k s =>
    let a := lsAddr k (fRb w) w
    match vecType (fMod w) with
    | none => coreFault c k.pc 0x21 s
    | some f =>
      let n := fmtBytes f * active k f
      match accessCause a 64 n with
      | some cause => coreFault c k.pc cause s
      | none =>
        let bs := (List.range n).map (fun i => tblGet 0 k.vregs (256 * fRa w + i))
        retire c k (spmWrite c a bs s)) s))

def execVbcast (c : CoreId) (w : IWord) (s : State) : Host.Outcome State Fault Refusal :=
  Issued 1 0x19 c w s (Next (issue c [pRd, pRa, pMod] [fRa w] w (fun k s =>
    match vecType (fMod w) with
    | none => coreFault c k.pc 0x21 s
    | some f =>
      let x := (sreg k (fRa w)).toNat % 2 ^ fmtWidth f
      retire c (readyV f (active k f) (fRd w) vecLat (putLanes f (fRd w) 0 (List.replicate (active k f) x) k)) s) s))

def execVext (c : CoreId) (w : IWord) (s : State) : Host.Outcome State Fault Refusal :=
  Issued 1 0x1A c w s (Next (issue c [pRd, pRa, pMod, pImm] [32 + fRa w] w (fun k s =>
    match vecType (fMod w) with
    | none => coreFault c k.pc 0x21 s
    | some f =>
      if laneCount f ≤ fImm w then coreFault c k.pc 0x21 s
      else retire c (writeS (fRd w) (BitVec.ofNat 64 (lane k f (fRa w) (fImm w))) vecLat k) s) s (fRd w)))

/-- VL = min(SA, 256). -/
def execVsetvl (c : CoreId) (w : IWord) (s : State) : Host.Outcome State Fault Refusal :=
  Issued 1 0x1B c w s (Next (issue c [pRa] [fRa w] w (fun k s => retire c { k with vl := min (sreg k (fRa w)).toNat 256 } s) s))

end Sys2Proof.Machine
end

