-- ==== Sys2Proof/Machine/Counters.lean ====
section
/-!
DEFINITION. Reading and clearing counter banks, bandwidth windows, the collector and the tag buffer, by R482 to R501, and the inventory EEPROM of R529.
-/
namespace Sys2Proof.Machine

/-! ## Who may read and write a bank (R489, R493, R516) -/

/-- The core's plot is disabled (R24). -/
def coreAbsent (s : State) (c : Nat) : Bool := decide (plotOfCore c ∈ s.disabled)

/-- A connection may read the pages of a core: while its plot is bound, or its Hedge retained, only the owner (R516). -/
def mayReadCore (s : State) (conn c : Nat) : Bool :=
  coreAbsent s c || (match hedgeOfCore s c with
    | none => true
    | some h => (getHedge s h).state == .scrubbing || ownsHedge s conn h)

/-- A shift moves the core: its Hedge's shift retires a site of its group at or west of its own (R418). -/
def coreMoving (s : State) (c : Nat) : Bool :=
  match hedgeOfCore s c with
  | none => false
  | some h => match tblFind h s.shifts with
    | none => false
    | some sh =>
      let p := routingSite s c
      sh.sites.any (fun q => siteRow q == siteRow p && siteCol q / 9 == siteCol p / 9 && decide (siteCol q ≤ siteCol p))

/-- A core's Hedge is RETAINED, or a shift froze it there. -/
def coreRetained (s : State) (c : Nat) : Bool :=
  match hedgeOfCore s c with
  | none => false
  | some h => (getHedge s h).state == .retained || (match tblFind h s.shifts with
    | some sh => sh.resume == .retained
    | none => false)

/-- What holds a core's pages, the cause that started first in front: 2 scrub, 3 retention, 4 shift, 5 recalibration of its cluster (R456,
R457). A recalibration starts only while none of the others holds (R385), a shift of a RETAINED Hedge after the retention. -/
def coreHolds (s : State) (c : Nat) : List Nat :=
  let scrubs := (hedgeOfCore s c).map (fun h => (getHedge s h).state) == some .scrubbing
  (if (tblGet {} s.clus (clusterOfCore s c)).recalAt.isSome then [5] else []) ++ (if coreRetained s c then [3] else []) ++
    (if scrubs then [2] else []) ++ (if coreMoving s c then [4] else [])

/-- BLK_LOCK's cause for a core's pages: 0 where nothing holds them. -/
def coreHold (s : State) (c : Nat) : Nat := (coreHolds s c).headD 0

/-- A connection may write the pages of a core: the owner of its bound Hedge, while nothing holds them. -/
def mayWriteCore (s : State) (conn c : Nat) : Bool :=
  !coreAbsent s c && coreHold s c == 0 && (match hedgeOfCore s c with
    | none => false
    | some h => ownsHedge s conn h)

/-- The holder of the device stream (R493). -/
def holdsDevice (s : State) (conn : Nat) : Bool :=
  getF s colPage Col.devHeld == 1 && ownsHedge s conn (getF s colPage Col.devHedge)

def mayReadBank (s : State) (conn b : Nat) : Bool := if b < 4096 then mayReadCore s conn b else true
def mayWriteBank (s : State) (conn b : Nat) : Bool := if b < 4096 then mayWriteCore s conn b else holdsDevice s conn

/-! ## Values (R482, R483, R487, R492) -/

/-- A bank that reads zero: one of a disabled plot, or of a retired channel. -/
def bankGone (s : State) (b : Nat) : Bool :=
  if b < 4096 then coreAbsent s b else decide (b < 4096 + 192) && mcState s (b - 4096) == mcRetired

/-- The number of a counter in the bank's latches. -/
def selIndex : CounterSel → Nat
  | .fixed i => i
  | .prog i => 4 + i
  | .last w => 16 + w
  | .max w => 32 + w

/-- The value of a counter, by its latch number. -/
def bankCount (s : State) (b n : Nat) : Nat :=
  let k := getBank s b
  if bankGone s b then 0
  else if n = 0 then bankF0 s b
  else if n < 4 then tblGet 0 k.fixed n
  else if n < 16 then tblGet 0 k.prog (n - 4)
  else if n < 32 then tblGet 0 k.last (n - 16)
  else tblGet 0 k.max (n - 32)

/-- A read of a LO word copies bits [47:32] into the counter's own latch. -/
def latchCount (b n : Nat) (s : State) : State :=
  let k := getBank s b
  putBank b { k with latch := tblPut 0 k.latch n (bankCount s b n / 2 ^ 32 % 2 ^ 16) } s

/-- COUNTER_LO_READ. -/
def execCounterLoRead (conn : ConnId) (b : BankId) (n : CounterSel) (s : State) : Host.Outcome State Fault Refusal :=
  Host.Outcome.next (if mayReadBank s conn b then latchCount b (selIndex n) s else s)

/-- P0 to P7 and every window's LAST and MAX become zero. -/
def clearCounts (b : Nat) (s : State) : State := putBank b { getBank s b with prog := [], last := [], max := [] } s

/-- CLR: a write of CNT_CTL.CLR. -/
def execCounterClr (conn : ConnId) (b : BankId) (s : State) : Host.Outcome State Fault Refusal :=
  Host.Outcome.next (if mayWriteBank s conn b then clearCounts b s else s)

/-! ## Bandwidth windows (R491) -/

/-- Windows that have ended by now: F0 divided by the window length. -/
def windowNo (s : State) (b : Nat) : Nat := bankF0 s b / 2 ^ getF s (bankBase b) Cnt.bwLog2

/-- BANDWIDTH_WINDOW_END: F0 has reached a multiple of the length. LAST takes the bytes of the window and MAX the larger; a window that a change of BW_LOG2 cut is
not counted. -/
def windowEnd (b : Nat) (s : State) : State :=
  let k := getBank s b
  let n := windowNo s b
  if n = k.ended then s
  else if k.short then putBank b { k with cur := [], ended := n, short := false } s
  else
    let top := (List.range 12).foldl (fun t w => if tblGet 0 t w < tblGet 0 k.cur w % 2 ^ 48 then tblPut 0 t w (tblGet 0 k.cur w % 2 ^ 48) else t) k.max
    let last := (List.range 12).foldl (fun t w => tblPut 0 t w (tblGet 0 k.cur w % 2 ^ 48)) []
    putBank b { k with cur := [], last := last, max := top, ended := n } s

def execBandwidthWindowEnd (b : BankId) (s : State) : Host.Outcome State Fault Refusal := Host.Outcome.next (windowEnd b s)

/-- A change of BW_LOG2: LAST and MAX are zero, and the first full window starts at the next boundary. -/
def changeWindow (b : Nat) (s : State) : State :=
  putBank b { getBank s b with cur := [], last := [], max := [], ended := windowNo s b, short := true } s

/-! ## The collector (R493 to R497) -/

/-- The Hedge number whose segments hold a stream's ring: the stream's own, or that of the claim. -/
def streamHedge (s : State) (st : Nat) : Nat := if st < 32 then st else getF s colPage Col.devHedge

/-- LOG2 of a stream's ring, 6 to 20. -/
def streamLog (s : State) (st : Nat) : Nat := max 6 (min 20 (getF s colPage Col.log2 st))

/-- The address of the next record of a stream. -/
def streamSlot (s : State) (st : Nat) : Nat :=
  getF s colPage Col.baseHi st * 2 ^ 32 + getF s colPage Col.baseLo st + 128 * (getF s colPage Col.tail st % 2 ^ streamLog s st)

/-- A stream has room for a record: it would not overtake HEAD, and its place lies in segments of the stream's Hedge number. -/
def streamRoom (s : State) (st : Nat) : Bool :=
  decide (ringDist (getF s colPage Col.head st) (getF s colPage Col.tail st) < 2 ^ streamLog s st) &&
    mereOwned s (streamHedge s st) (streamSlot s st) 128

/-- Writes a record at TAIL; PHASE is 1 on the first pass and inverts on each later one (R207). -/
def putRecord (st type flags inst sweep stamp : Nat) (rest : List Byte) (s : State) : State :=
  let t := getF s colPage Col.tail st
  let phase := (t / 2 ^ streamLog s st + 1) % 2
  let bytes := leBytes 1 type ++ leBytes 1 (flags + phase) ++ leBytes 2 inst ++ leBytes 4 sweep ++ leBytes 8 stamp ++ rest
  addF colPage Col.tail 1 (mereWrite (streamSlot s st) bytes s) st

/-- Reference edges since device reset. -/
def resetEdges (s : State) : Nat := s.now - s.resetEdge

/-- A marker record: END 0x10, DROPPED 0x08. -/
def putMarker (st flags sweep : Nat) (s : State) : State :=
  putRecord st 0xFF flags st sweep (resetEdges s) (List.replicate 112 0) s

/-- End markers that wait are written while there is room. -/
def payMarkers (st : Nat) : List Nat → State → State
  | [], s => { s with owedEnd := tblErase st s.owedEnd }
  | n :: t, s =>
    if streamRoom s st then payMarkers st t (putMarker st 0x18 n s)
    else { s with owedEnd := tblInsert st (n :: t) s.owedEnd }

def payStream (st : Nat) (s : State) : State :=
  match tblFind st s.owedEnd with
  | none => s
  | some l => payMarkers st l s

/-- BANKTYPE and instance of a bank. -/
def bankType (b : Nat) : Nat := if b < 4096 then 1 else bankInst (b - 4096) / 0x1000
def bankNo (b : Nat) : Nat := if b < 4096 then b else bankInst (b - 4096) % 0x1000

/-- The cluster of a core bank is GATED or in STANDBY. -/
def bankIdle (s : State) (b : Nat) : Bool :=
  decide (b < 4096) && (clkState s (clusterOfCore s b) == 2 || clkState s (clusterOfCore s b) == 3)

/-- The record of a bank (R496). -/
def bankRecord (st b sweep : Nat) (s : State) : State :=
  let k := getBank s b
  let flags := (if bankIdle s b then 2 else 0) + (if k.lost then 4 else 0)
  let count := fun n => leBytes 8 (bankCount s b n)
  let sels := (List.range 8).flatMap (fun i => leBytes 1 (if bankGone s b then 0 else getF s (bankBase b) Cnt.sel i))
  let rest := (List.range 12).flatMap count ++ sels ++ List.replicate 8 0
  putRecord st (bankType b) flags (bankNo b) sweep (bankCount s b 0) rest (putBank b { k with lost := false } s)

/-- The banks a stream carries: the core banks of its Hedge while it is bound and not being scrubbed (R157), or every other bank. -/
def streamBanks (s : State) (st : Nat) : List Nat :=
  if (getHedge s st).state = .scrubbing ∧ st < 32 then []
  else if st < 32 then ((List.range 4096).filter (fun c => decide (hedgeOfCore s c = some st))) else (List.range 199).map (fun j => 4096 + j)

/-- Records of a stream in turn; the first that finds no room stops them, and the rest are lost. Answers the number lost. -/
def sweepBanks (st sweep : Nat) : List Nat → State → Nat × State
  | [], s => (0, s)
  | b :: t, s => if streamRoom s st then sweepBanks st sweep t (bankRecord st b sweep s) else (t.length + 1, s)

/-- One stream of a sweep: its start marker, its records, its end marker. -/
def sweepStream (sweep st : Nat) (s : State) : State :=
  let s := payStream st s
  let banks := streamBanks s st
  let r := if streamRoom s st then sweepBanks st sweep banks (putMarker st 0 sweep s) else (banks.length + 1, s)
  let s := addF colPage Col.dropCnt r.1 r.2 st
  if r.1 = 0 ∧ streamRoom s st then putMarker st 0x10 sweep s
  else payStream st { s with owedEnd := tblInsert st ((tblGet [] s.owedEnd st) ++ [sweep]) s.owedEnd }

/-- COLLECTOR_SWEEP: every PERIOD × 100 µs while EN is 1, the enabled streams in order. -/
def sweep (s : State) : State :=
  if getF s colPage Col.en = 0 ∨ s.now < s.sweptAt + getF s colPage Col.period * 100 * usEdges then s
  else
    let n := getF s colPage Col.sweep
    let s := (List.range 33).foldl (fun s st => if getF s colPage Col.strEn st = 1 then sweepStream n st s else s) { s with sweptAt := s.now }
    addF colPage Col.sweep 1 s

def execCollectorSweep (s : State) : Host.Outcome State Fault Refusal := Host.Outcome.next (sweep s)

/-- COL_DEV_CLAIM: a connection takes the device stream, while no one holds it, with a Hedge number it owns. -/
def claimDevice (conn h : Nat) (s : State) : State :=
  if getF s colPage Col.devHeld = 1 ∨ ownsHedge s conn h = false then s
  else setF colPage Col.devHeld 1 (setF colPage Col.devHedge h s)

def execColDevClaim (conn : ConnId) (h : HedgeId) (s : State) : Host.Outcome State Fault Refusal :=
  Host.Outcome.next (claimDevice conn h s)

/-! ## Instruction tags (R499, R500) -/

/-- A stamp as the entry holds it: past 0xFF_FFFE it reads 0xFF_FFFE. -/
def tagStamp (n : Nat) : Nat := min n 0xFFFFFE

/-- TAG_WB: the tagged instruction of a core reaches WB; its entry is VALID, with TRUNC where a stamp is cut. -/
def tagWb (c ready start fin wb : Nat) (s : State) : State :=
  match tblFind c s.tagged with
  | none => s
  | some t =>
    if ready ≤ start ∧ start ≤ fin ∧ fin ≤ wb then
      tagWrite c t (2 ^ 25 + (if 0xFFFFFE < wb then 2 ^ 26 else 0)) (tagStamp ready) (tagStamp start) (tagStamp fin) (tagStamp wb) s
    else s

def execTagWb (c : CoreId) (ready start fin wb : Word32) (s : State) : Host.Outcome State Fault Refusal :=
  Host.Outcome.next (tagWb c ready.toNat start.toNat fin.toNat wb.toNat s)

/-! ## The inventory EEPROM (R529) -/

/-- The maximum input of a grade, in units of 10 W, and the letter of its part number (R2). -/
def gradeTens (g : Nat) : Nat := match g with
  | 0 => 1550
  | 1 => 1250
  | _ => 950

def gradeLetter (g : Nat) : Nat := if g = 0 then 0x41 else if g = 1 then 0x42 else 0x43

/-- The part number in 16 bytes: SPM-4096 and the letter, zero-padded. -/
def partNumber (g : Nat) : List Byte :=
  [0x53, 0x50, 0x4D, 0x2D, 0x34, 0x30, 0x39, 0x36] ++ leBytes 1 (gradeLetter g) ++ List.replicate 7 0

/-- The 256 bytes of the EEPROM. -/
def inventory (f : Fuses) : List Byte :=
  let b := leBytes 4 0x53504D31 ++ partNumber f.eeGrade ++ leBytes 16 f.serial ++ leBytes 2 f.eeRev ++ leBytes 2 (gradeTens f.eeGrade) ++
    List.replicate 212 0
  b ++ leBytes 4 (crc32 b)

/-- INVENTORY_READ: a two-wire read of one byte, with or without input power. -/
def execInventoryRead (off : Fin 256) (s : State) : Host.Outcome State Fault Refusal :=
  Host.Outcome.next { s with outbox := s.outbox ++ [.inventory off.val ((inventory s.fuses).getD off.val 0)] }

end Sys2Proof.Machine
end

