-- ==== Sys2Proof/Machine/FieldTest.lean ====
section
/-!
DEFINITION. Field tests, by R437 to R441: which sites may run one, their digests, and the votes.
-/
namespace Sys2Proof.Machine

/-- Sites in TEST. -/
def inTest (s : State) : List Nat := s.tests.flatMap (fun t => t.running)

/-- Bring-up is over: the device is READY or READY_DEGRADED. -/
def deviceReady (s : State) : Bool := getF s bupPage Bup.state == 1 || getF s bupPage Bup.state == 2

/-- A site is due: never tested, tested longest PERIOD_MS ago, or one of three that disagreed; and not within FT_PERIOD_MIN of its last (R437, R453). -/
def testDue (s : State) (p : Nat) : Bool :=
  match tblFind p s.testedAt with
  | none => true
  | some t => decide (t + 20 * msEdges ≤ s.now) && (decide (t + getF s ftePage Fte.periodMs * msEdges ≤ s.now) || decide (p ∈ s.retest))

/-- The core of the site, if it holds one, has been IDLE for 50 µs (R437). -/
def idleLong (s : State) (p : Nat) : Bool :=
  match coreOfSite s p with
  | none => true
  | some c => (getCore s c).mode == .idle && decide (tblGet 0 s.idleAt c + 50 * usEdges ≤ s.now)

/-- The Hedge of the site's plot is READY with no step asked for, or the plot is unbound (R437). -/
def hedgeQuiet (s : State) (p : Nat) : Bool :=
  match hedgeOfPlot s (plotOfSite p) with
  | none => true
  | some h => (getHedge s h).state == .ready && (getHedge s h).run.isNone

/-- Privet's scheduler runs, and the site is due, idle and quiet, with no other core of its cluster in TEST (R437, R446). -/
def testDueNow (s : State) (p : Nat) : Bool :=
  deviceReady s && s.pwr.privetOn && s.pwr.away.isNone && getF s ftePage Fte.en == 1 && decide (p ∉ s.holes) &&
    idleLong s p && hedgeQuiet s p && testDue s p && (inTest s).all (fun q => clusterOfSite q != clusterOfSite p)

/-- A site may start a test. -/
def testable (s : State) (p : Nat) : Bool :=
  let cl := clusterOfSite p
  testDueNow s p && sprState s cl == sprActive && (clkState s cl == 1 || clkState s cl == 2)

/-- A due site's cluster stands in STANDBY, and Privet has asked for no wake of it for WAKE_S seconds. -/
def testWakes (s : State) (p : Nat) : Bool :=
  let cl := clusterOfSite p
  testDueNow s p && sprState s cl == sprRetention && clkState s cl == 3 && (match (getClus s cl).testWake with
    | none => true
    | some t => decide (t + getF s ftePage Fte.wakeS * secEdges ≤ s.now))

/-- Sites a seed wants: two, and a third where two digests differ. -/
def wanted (t : TestRun) : Nat := if t.third then 3 else 2

/-- Partners that have run the seed, run it now, or still have time to: one that has not within 1 s is replaced (R441). -/
def partners (s : State) (t : TestRun) : List (Nat × Nat) :=
  t.sites.filter (fun e => t.digests.any (fun d => d.1 == e.1) || decide (e.1 ∈ t.running) || decide (s.now < e.2 + secEdges))

/-- Two sites of a three-way disagreement that have not all voted again are no partners (R441). -/
def apart (s : State) (p q : Nat) : Bool := s.splits.any (fun g => decide (p ∈ g.1 ∧ q ∈ g.1))

/-- Sites that have voted, whose disagreement is over once all of it has. -/
def voted (l : List Nat) (s : State) : State :=
  { s with splits := (s.splits.map (fun g => (g.1, g.2.filter (fun p => p ∉ l)))).filter (fun g => !g.2.isEmpty) }

/-- The site may take the seed: it holds it already without a digest, or the seed wants another site and none of its sites shares the cluster. -/
def mayJoin (s : State) (p : Nat) (t : TestRun) : Bool :=
  let ps := partners s t
  if ps.any (fun e => e.1 == p) then t.digests.all (fun d => d.1 != p)
  else decide (ps.length < wanted t) && ps.all (fun e => clusterOfSite e.1 != clusterOfSite p && !apart s e.1 p)

/-- The seeds with the site in one of them: the first it may join, or a fresh one. -/
def assign (s : State) (p : Nat) (seed : Nat) : List TestRun → List TestRun
  | [] => [⟨seed, [(p, s.now)], [p], [], false⟩]
  | t :: rest =>
    if mayJoin s p t then
      let ps := partners s t
      let ps := if ps.any (fun e => e.1 == p) then ps else ps ++ [(p, s.now)]
      { t with sites := ps, running := t.running ++ [p] } :: rest
    else t :: assign s p seed rest

/-- What a test leaves of a core's private state: registers and VL restored; tiles and statistics as step start leaves them (R439). -/
def testCore (m : CoreMode) (k : Core) : Core :=
  { k with mode := m, slots := [], slotBad := [], stats := (stepReset 0 0 k).stats }

def setTestMode (p : Nat) (m : CoreMode) (s : State) : State :=
  match coreOfSite s p with
  | none => s
  | some c => putCore c (testCore m (getCore s c)) s

/-- A test starts: the cluster's clock runs, and the site has a seed. For a cluster in STANDBY its wake is asked for. -/
def startTest (p : Nat) (s : State) : State :=
  let cl := clusterOfSite p
  if testWakes s p then wakeCluster cl (putClus cl { getClus s cl with testWake := some s.now } s)
  else if testable s p = false then s
  else
    let s := if clkState s cl = 2 then clockResume cl s else s
    let d := draw s
    let s := touch cl d.2
    let s : State := { s with tests := assign s p (d.1 % 2 ^ 64) s.tests, testedAt := tblInsert p s.now s.testedAt,
                              retest := s.retest.filter (· != p) }
    setTestMode p .test s

/-- A test ends with its digest. A site whose core failed an origin check gives none, and the failure is charged to it (R441). -/
def finishTest (p : Nat) (out : TestEnd) (s : State) : State :=
  let s := setTestMode p .idle s
  let s := match coreOfSite s p with
    | none => s
    | some c => markIdle [c] s
  match out with
  | .digest d =>
    let s := addF ftePage Fte.runCnt 1 s
    endTest p { s with tests := s.tests.map (fun t => if p ∈ t.running then { t with digests := t.digests ++ [(p, d.toNat)] } else t) }
  | .originFail kind =>
    let s := endTest p { s with tests := s.tests.map (fun t => if p ∈ t.running then { t with sites := t.sites.filter (fun e => e.1 != p) } else t) }
    match coreOfSite s p with
    | some c => detect ⟨Fin.ofNat 4096 c, kind⟩ s
    | none => chargeUc none p (addF errPage Err.ucCnt 1 s)

/-- FIELD_TEST: a site begins a test, or ends the one it runs. -/
def execFieldTest (p : SiteId) (out : Option TestEnd) (s : State) : Host.Outcome State Fault Refusal :=
  Host.Outcome.next (match out with
    | none => startTest p.val s
    | some e => if p.val ∈ inTest s then finishTest p.val e s else s)

/-- FIELD_TEST_YIELD: the test of a site is discarded and counted, and its core is IDLE (R440). -/
def yieldTest (p : Nat) (s : State) : State :=
  if p ∈ inTest s then
    let s := setTestMode p .idle s
    let s := match coreOfSite s p with
      | none => s
      | some c => markIdle [c] s
    addF ftePage Fte.yieldCnt 1 (endTest p s)
  else s

def execFieldTestYield (p : SiteId) (s : State) : Host.Outcome State Fault Refusal := Host.Outcome.next (yieldTest p.val s)

/-! ## Votes (R441) -/

def passSite (p : Nat) (s : State) : State := setF (stePage (p / 512)) Ste.ftPass 1 s (p % 512)

/-- A site is outvoted by two digests that agree. -/
def outvote (p : Nat) (s : State) : State :=
  let s := setF (stePage (p / 512)) Ste.ftOutvoted 1 (setF (stePage (p / 512)) Ste.ftPass 0 s (p % 512)) (p % 512)
  let s := setF ftePage Fte.last p (addF ftePage Fte.retireCnt 1 s)
  planRetire p 0xE3 (setErr errPage Err.eFtOutvote 0 0 s)

/-- A seed with the digests it waits for. -/
def decided (t : TestRun) : Bool := decide (wanted t ≤ t.digests.length)

/-- The vote on one seed: two digests that match pass both sites; two that differ ask for a third; of three, the one that differs from two is outvoted, and
three that all differ retire none and are tested again. -/
def vote (t : TestRun) (s : State) : State :=
  let drop := fun (s : State) => voted (t.digests.map (fun d => d.1)) { s with tests := s.tests.erase t }
  match t.digests with
  | [a, b] =>
    if a.2 = b.2 then drop (passSite b.1 (passSite a.1 s))
    else addF ftePage Fte.mmCnt 1 { s with tests := s.tests.map (fun x => if x = t then { t with third := true } else x) }
  | [a, b, c] =>
    if a.2 = c.2 then drop (outvote b.1 (passSite c.1 (passSite a.1 s)))
    else if b.2 = c.2 then drop (outvote a.1 (passSite c.1 (passSite b.1 s)))
    else
      let s := addF ftePage Fte.splitCnt 1 (drop s)
      let l := [a.1, b.1, c.1]
      { s with retest := l.foldl (fun l p => insertAsc p l) s.retest, splits := s.splits ++ [(l, l)] }
  | _ => s

/-- FIELD_TEST_VOTE: the first seed whose digests are all in. -/
def execFieldTestVote (s : State) : Host.Outcome State Fault Refusal :=
  Host.Outcome.next (match s.tests.find? decided with
    | none => s
    | some t => vote t s)

end Sys2Proof.Machine
end

