-- ==== Sys2Proof/Machine/Privet.lean ====
section
/-!
DEFINITION. Privet's requests, by R231 and R458 to R478: the request blocks and their checks, sessions, each command with its response, firmware updates,
attestation and telemetry. What a signature, a wrapped key or an image's vendor key proves is an operand of the row that checks it; HMACs, digests and the
key derivation are computed.
-/
namespace Sys2Proof.Machine

/-! ## Request blocks (R458, R459) -/

def rqClass (b : List Byte) : Nat := bNat b 0x05 1
def rqCmd (b : List Byte) : Nat := bNat b 0x06 2
def rqLength (b : List Byte) : Nat := bNat b 0x08 4
def rqSession (b : List Byte) : Nat := bNat b 0x0C 4
def rqCounter (b : List Byte) : Nat := bNat b 0x10 8
def rqSerial (b : List Byte) : Nat := bNat b 0x18 16

/-- Lengths are padded to a multiple of 8. -/
def pad8 (n : Nat) : Nat := (n + 7) / 8 * 8

/-- Bytes of the authenticator of a class. -/
def authLen (cls : Nat) : Nat := match cls with
  | 1 => 48
  | 2 => 96 + 1772
  | _ => 0

/-- The header and the padded payload, which the authenticator covers. -/
def rqSigned (b : List Byte) : List Byte := b.take (64 + pad8 (rqLength b))
def rqPayload (b : List Byte) : List Byte := (b.drop 64).take (rqLength b)
def rqAuth (b : List Byte) : List Byte := b.drop (64 + pad8 (rqLength b))

/-- Every byte of a stretch is zero. -/
def zeroAt (b : List Byte) (off n : Nat) : Bool := bNat b off n == 0

/-- The form of a block (R458): magic, version, class, length, and zero wherever its class gives a field no value. -/
def rqFormed (b : List Byte) : Bool :=
  decide (64 ≤ b.length) && bNat b 0 4 == 0x50525651 && bNat b 4 1 == 1 && decide (rqClass b ≤ 2) &&
    b.length == 64 + pad8 (rqLength b) + authLen (rqClass b) && zeroAt b 0x28 24 && zeroAt b (64 + rqLength b) (pad8 (rqLength b) - rqLength b) &&
    (rqClass b == 1 || rqSession b == 0) && (rqClass b != 0 || rqCounter b == 0) && (rqClass b == 2 || rqSerial b == 0)

/-- The commands of R460, with the class of each. -/
def cmdClass (cmd : Nat) : Option Nat :=
  if cmd = 0x0001 ∨ cmd = 0x0002 then some 0
  else if 0x0010 ≤ cmd ∧ cmd ≤ 0x0016 then some 2
  else if 0x0020 ≤ cmd ∧ cmd ≤ 0x0027 then some 1
  else none

/-- The payload has the length and the zero bytes of its command. The length of a group key is stated nowhere: from 1 to 128 bytes. -/
def payloadFormed (cmd : Nat) (p : List Byte) : Bool :=
  let n := p.length
  match cmd with
  | 0x10 => n == 136 && zeroAt p 132 4
  | 0x11 => n == 16 && zeroAt p 12 4
  | 0x15 => n == 152
  | 0x16 => n % 16 == 0 && decide (n ≤ 4096)
  | 0x21 => n == 8 && zeroAt p 4 4
  | 0x22 => n == 8 && zeroAt p 2 6
  | 0x23 => n == 8
  | 0x24 => n == 8
  | 0x25 => decide (2056 + 16 < n ∧ n ≤ 2056 + 16 + 128) && zeroAt p 3 5
  | 0x26 => n == 72 && zeroAt p 3 1 && zeroAt p 20 4
  | 0x27 => n == 32
  | _ => n == 0

/-- INFO codes of R465. -/
def pvOk : Nat := 0x00
def pvBadFormat : Nat := 0x01
def pvUnknownCmd : Nat := 0x02
def pvWrongClass : Nat := 0x03
def pvWrongDevice : Nat := 0x04
def pvStale : Nat := 0x05
def pvBadEcdsa : Nat := 0x06
def pvBadLms : Nat := 0x07
def pvNoSession : Nat := 0x08
def pvBadHmac : Nat := 0x09
def pvReplay : Nat := 0x0A
def pvBusy : Nat := 0x0B
def pvRollback : Nat := 0x0C
def pvBadImage : Nat := 0x0D
def pvOutOfSegment : Nat := 0x0E
def pvRspSmall : Nat := 0x0F
def pvHssExhausted : Nat := 0x10
def pvFlashFail : Nat := 0x11
def pvInterrupted : Nat := 0x12

/-! ## Responses (R459, R463, R465) -/

/-- The 64-byte header of a response: the request's class, command, session, counter and serial, with the code and the flags. -/
def responseHead (b : List Byte) (code flags len : Nat) : List Byte :=
  let b := b.take 64 ++ List.replicate (64 - b.length) 0
  leBytes 4 0x50525651 ++ [1] ++ (b.drop 5).take 3 ++ leBytes 4 len ++ (b.drop 0x0C).take 28 ++ leBytes 1 code ++ leBytes 1 (0x80 + flags) ++
    List.replicate 22 0

/-- A response block; a ROUTINE one carries its HMAC. -/
def responseBlock (b : List Byte) (code flags : Nat) (pay : List Byte) (key : Option (List Byte)) : List Byte :=
  let body := responseHead b code flags pay.length ++ pay ++ List.replicate (pad8 pay.length - pay.length) 0
  match key with
  | none => body
  | some k => body ++ hmac384 k body

/-- The descriptor a Mailbox request came from, while it is in flight. -/
def requestFlight (s : State) (r : PReq) : Option Flight :=
  (getQueue s (128 + r.src)).flights.find? (fun f => f.started && f.index == r.ident)

/-- Privet answers a request: through the Mailbox into RSP with the completion, or as a RESPONSE block on its management connection. A response over RSP_CAP is
not written. -/
def respond (r : PReq) (code flags : Nat) (pay : List Byte) (key : Option (List Byte)) (s : State) : State :=
  let full := responseBlock r.block code flags pay key
  if r.src < 4 then
    match requestFlight s r with
    | none => s
    | some f =>
      let q := 128 + r.src
      let n := full.length
      if n ≤ dNat f.desc 0x28 4 then
        complete q f { status := if code = pvOk then stOk else stPrivet, info := code, detail := n } (mereWrite (dNat f.desc 0x20 8) full s)
      else complete q f { status := stPrivet, info := if code = pvOk then pvRspSmall else code, detail := if code = pvOk then n else 0 } s
  else sendBlock (r.src - 4) mkResponse r.ident 0 full s

/-- A refusal: a header alone. -/
def refuse (r : PReq) (code : Nat) (s : State) : State := respond r code 0 [] none s

/-! ## Taking requests up (R231, R466, R467) -/

/-- The controller runs (R446). -/
def privetUp (s : State) : Bool := s.pwr.privetOn && s.pwr.away.isNone

/-- A block whose form, command or class is wrong is refused at once; any other waits for its turn. -/
def takeRequest (r : PReq) (s : State) : State :=
  let b := r.block
  if rqFormed b = false then refuse r pvBadFormat s
  else match cmdClass (rqCmd b) with
    | none => refuse r pvUnknownCmd s
    | some cls =>
      if rqClass b ≠ cls then refuse r pvWrongClass s
      else if payloadFormed (rqCmd b) (rqPayload b) = false then refuse r pvBadFormat s
      else { s with preqs := s.preqs ++ [r] }

/-- Reads blocks of Mere in turn; the first uncorrectable one, if any. -/
def firstBadBlock (hedge : Nat) : List Nat → State → Option Nat × State
  | [], s => (none, s)
  | b :: t, s =>
    let r := mereReadBlock (some hedge) b s
    if r.1 then firstBadBlock hedge t r.2 else (some b, r.2)

/-- A range lies in Mere segments of a Hedge number; an empty one is not checked. -/
def inSegments (s : State) (h a n : Nat) : Bool := n == 0 || mereOwned s h a n

/-- REQUEST of a Mailbox queue: the descriptor's ranges are checked and the request is read; a parity error on the way ends it with DATA_UC (R239). -/
def mailboxRequest (m : Nat) (parityBad : Bool) (s : State) : State :=
  let q := 128 + m
  match startedOp s q 1 with
  | none => s
  | some f =>
    if s.preqs.any (fun r => r.src == m && r.ident == f.index) || (s.busy.any (fun u => u.req.src == m && u.req.ident == f.index)) then s
    else
      let h := queHedge s q
      let a := dNat f.desc 0x10 8
      let n := dNat f.desc 0x18 4
      let p := dNat f.desc 0x20 8
      if inSegments s h a n = false then complete q f { status := stAccess, detail := a } s
      else if inSegments s h p (dNat f.desc 0x28 4) = false then complete q f { status := stAccess, detail := p } s
      else if parityBad then
        let e := engineParity q [] s
        complete q f e.1 e.2
      else
        let r := firstBadBlock h (blocksOf a n) s
        match r.1 with
        | some b => complete q f { status := stDataUc, detail := b } r.2
        | none => takeRequest ⟨m, f.index, memList r.2 a n⟩ r.2

/-- REQUEST of a management connection: the first message of its inbox, if it is one; a block is complete when TOTAL bytes have arrived in ascending OFFSET. A
RESPONSE or TELEMETRY message answers nothing this device asked for and is dropped, and so is a STEER message of a kind that R381 does not give. -/
def mgmtRequest (k : Nat) (s : State) : State :=
  let c := getConn s k
  match c.inbox with
  | [] => s
  | w :: rest =>
    let kind := bNat w.body 0 1
    if w.type ≠ tMgmt ∨ c.kind ≠ 2 ∨ (kind = mkSteer ∧ bNat w.body 32 1 ≤ 4) then s
    else
      let s := putConn k { c with inbox := rest } s
      if kind ≠ mkRequest ∨ w.body.length < 32 then s
      else
        let xid := bNat w.body 4 4
        let total := bNat w.body 8 4
        let off := bNat w.body 0xC 4
        let old := match tblFind k s.frags with
          | some f => if f.xid = xid ∧ f.total = total ∧ off ≠ 0 then f else ⟨xid, total, []⟩
          | none => ⟨xid, total, []⟩
        if off ≠ old.bytes.length then { s with frags := tblErase k s.frags }
        else
          let bytes := old.bytes ++ w.body.drop 32
          if bytes.length < total then { s with frags := tblInsert k ⟨xid, total, bytes⟩ s.frags }
          else takeRequest ⟨4 + k, xid, bytes.take total⟩ { s with frags := tblErase k s.frags }

/-- REQUEST: a request from Mailbox queue 0 to 3, or from connection src − 4. While Privet is away it waits. -/
def execRequest (src : Run (Fin 4100)) (s : State) : Host.Outcome State Fault Refusal :=
  Host.Outcome.next (if privetUp s = false then s else if src.unit.val < 4 then mailboxRequest src.unit.val src.bad s else mgmtRequest (src.unit.val - 4) s)

/-- The request served next: round-robin over the sources, from the one after the last. -/
def nextReq (s : State) : Option PReq :=
  let dist := fun (r : PReq) => (r.src + 4100 - s.served - 1) % 4100
  s.preqs.foldl (fun b r => match b with
    | none => some r
    | some x => if dist r < dist x then some r else some x) none

/-- Serves the next request where it has a command. -/
def serve (cmd : Nat) (act : PReq → State → State) (s : State) : State :=
  if privetUp s = false then s
  else match nextReq s with
    | none => s
    | some r => if rqCmd r.block = cmd then act r { s with preqs := s.preqs.erase r, served := r.src } else s

/-! ## Sensitive requests (R461) and sessions (R462, R463) -/

/-- The checks of a SENSITIVE request in their order; when all pass, SREQ_CTR advances before Privet acts. -/
def sensitive (cmd : Nat) (ecdsa lms : Bool) (act : PReq → State → State) (s : State) : State :=
  serve cmd (fun r s =>
    let badSig := fun (code : Nat) (s : State) =>
      refuse r code (journal jEvent pgSec Sec.eBadSig 0xFF code (setErr secPage Sec.eBadSig 0 0 s))
    if s.busy.isSome then refuse r pvBusy s
    else if rqSerial r.block ≠ s.fuses.serial then refuse r pvWrongDevice s
    else if rqCounter r.block ≠ s.flash.sreq then refuse r pvStale s
    else if ecdsa = false then badSig pvBadEcdsa s
    else if lms = false then badSig pvBadLms s
    else act r { s with flash := { s.flash with sreq := s.flash.sreq + 1 } }) s

/-- The owner of the Hedge number of a Mailbox queue; none for a management connection. -/
def sessionOwner (s : State) (src : Nat) : Option Nat := if src < 4 then (getHedge s (queHedge s (128 + src))).owner else none

/-- A session lives until LIFETIME_S has passed or its queue's Hedge number changes its owner; the ends R463 names beside these remove it. -/
def sessionLive (s : State) (src : Nat) (x : Session) : Bool :=
  decide (s.now < x.opened + x.life * secEdges) && x.owner == sessionOwner s src

/-- The live session of a source. -/
def sessionOf (s : State) (src : Nat) : Option Session :=
  match tblFind src s.sessions with
  | none => none
  | some x => if sessionLive s src x then some x else none

/-- The checks of a ROUTINE request. -/
def routine (cmd : Nat) (act : PReq → Session → State → State) (s : State) : State :=
  serve cmd (fun r s =>
    match sessionOf s r.src with
    | none => refuse r pvNoSession s
    | some x =>
      if rqSession r.block ≠ x.number then refuse r pvNoSession s
      else if hmac384 x.mac (rqSigned r.block) ≠ rqAuth r.block then refuse r pvBadHmac (setErr secPage Sec.eBadHmac 0 0 s)
      else if rqCounter r.block ≤ x.last then refuse r pvReplay s
      else
        let x := { x with last := rqCounter r.block }
        act r x { s with sessions := tblInsert r.src x s.sessions }) s

/-- A value of Privet's generator or keys, of some bytes. -/
def drawBytes (n : Nat) (s : State) : List Byte × State :=
  (leBytes n (Config.freeBits s.freeCtr), { s with freeCtr := s.freeCtr + 1 })

/-- Advances the HSS index; HSS_LOW is set when fewer than 65,536 remain (R474). -/
def advanceHss (s : State) : State :=
  let s : State := { s with flash := { s.flash with hss := s.flash.hss + 1 } }
  if 2 ^ 20 < s.flash.hss + 65536 then setErr secPage Sec.eHssLow 0 0 s else s

def hssSpent (s : State) : Bool := decide (2 ^ 20 ≤ s.flash.hss)

/-- Both identity signatures over a digest: ECDSA and HSS. -/
def sign (s : State) : List Byte × State :=
  let a := drawBytes 96 (advanceHss s)
  let b := drawBytes 2964 a.2
  (a.1 ++ b.1, b.2)

/-- HKDF-SHA-384 of 80 bytes: the MAC key and the wrap key. -/
def deriveKeys (secret salt : List Byte) (number : Nat) : List Byte × List Byte :=
  let prk := hmac384 salt secret
  let t1 := hmac384 prk (leBytes 4 number ++ [1])
  let t2 := hmac384 prk (t1 ++ leBytes 4 number ++ [2])
  (t1, t2.take 32)

/-- SESSION_OPEN (R462). -/
def sessionOpen (r : PReq) (s : State) : State :=
  if hssSpent s then refuse r pvHssExhausted s
  else
    let p := rqPayload r.block
    let d := draw s
    let number := 1 + d.1 % (2 ^ 32 - 1)
    let pub := drawBytes 96 d.2
    let nonce := drawBytes 32 pub.2
    let secret := drawBytes 48 nonce.2
    let sg := sign secret.2
    let keys := deriveKeys secret.1 ((p.drop 96).take 32 ++ nonce.1) number
    let life := max 60 (min (bNat p 128 4) 86400)
    let s := sg.2
    let x : Session := { number := number, owner := sessionOwner s r.src, opened := s.now, life := life, mac := keys.1, wrap := keys.2 }
    respond r pvOk 0 (leBytes 4 number ++ leBytes 4 0 ++ pub.1 ++ nonce.1 ++ sg.1) none { s with sessions := tblInsert r.src x s.sessions }

def execSessionOpen (ecdsa lms : Bool) (s : State) : Host.Outcome State Fault Refusal :=
  Host.Outcome.next (sensitive 0x10 ecdsa lms sessionOpen s)

/-- SESSION_CLOSE. -/
def execSessionClose (s : State) : Host.Outcome State Fault Refusal :=
  Host.Outcome.next (routine 0x20 (fun r x s => respond r pvOk 0 [] (some x.mac) { s with sessions := tblErase r.src s.sessions }) s)

/-- SESSION_LIFETIME: LIFETIME_S has passed since the session of a source was opened. -/
def execSessionLifetime (src : Fin 4100) (s : State) : Host.Outcome State Fault Refusal :=
  Host.Outcome.next (match tblFind src.val s.sessions with
    | none => s
    | some x => if x.opened + x.life * secEdges ≤ s.now then { s with sessions := tblErase src.val s.sessions } else s)

/-! ## Open commands (R460, R475) -/

/-- The device certificate. -/
def certificate (s : State) : List Byte :=
  leBytes 4 0x50524354 ++ leBytes 4 1 ++ leBytes 16 s.fuses.serial ++ leBytes 16 (Config.certField 0x18) ++ leBytes 96 (Config.certField 0x28) ++
    leBytes 60 (Config.certField 0x88) ++ leBytes 12 0 ++ leBytes 48 (Config.certField 0xD0) ++ leBytes 96 (Config.certField 0x100) ++
    leBytes 1772 (Config.certField 0x160)

def execIdentityRead (s : State) : Host.Outcome State Fault Refusal :=
  Host.Outcome.next (serve 0x01 (fun r s => respond r pvOk 0 (certificate s) none s) s)

/-- The payload of STATUS_READ. -/
def statusPayload (s : State) : List Byte :=
  leBytes 8 s.flash.sreq ++ leBytes 4 s.flash.hss ++ leBytes 1 s.fuses.svn ++ leBytes 1 s.flash.slot ++ leBytes 1 (getF s prvPage Prv.debug) ++ [0]

def execStatusRead (s : State) : Host.Outcome State Fault Refusal :=
  Host.Outcome.next (serve 0x02 (fun r s => respond r pvOk 0 (statusPayload s) none s) s)

/-! ## Firmware updates (R447, R468 to R470) -/

/-- What an image's header and body show of R469 beside its keys and signatures. -/
def imageFormed (b : List Byte) : Bool :=
  let body := (b.drop 4096).take (bNat b 0x14 4)
  bNat b 0 4 == 0x5052494D && bNat b 4 2 == 1 && bNat b 6 2 == 1 && bNat b 0x11 1 < 8 && zeroAt b 0x12 2 && zeroAt b 0xE8 24 && zeroAt b 0x84C 1972 &&
    decide (bNat b 0x14 4 ≤ 0x7FF000) && decide (body.length = bNat b 0x14 4) && decide (bNat b 0x18 4 + bNat b 0x1C 4 ≤ bNat b 0x14 4) &&
    decide (bNat b 0x1C 4 ≤ 65536) && decide (bNat b 0x10 1 ≤ 64) && decide (sha384 body = (b.drop 0x20).take 48)

/-- The image range is one Privet may read: the queue's segments, or offered Mere for a management request. -/
def imageRange (s : State) (r : PReq) (a n : Nat) : Bool :=
  if r.src < 4 then inSegments s (queHedge s (128 + r.src)) a n else decide (mereBase ≤ a ∧ a + n ≤ mereEnd s)

/-- FW_UPDATE begins: the image is read and checked before anything is written. -/
def beginUpdate (imageOk : Bool) (r : PReq) (s : State) : State :=
  let p := rqPayload r.block
  let a := bNat p 0 8
  let n := bNat p 8 4
  if imageRange s r a n = false then refuse r pvOutOfSegment s
  else
    let m := mereRead none a n s
    if m.1 = false ∨ imageFormed m.2.1 = false ∨ imageOk = false then refuse r pvBadImage m.2.2
    else if bNat m.2.1 0x10 1 < m.2.2.fuses.svn then refuse r pvRollback (setErr secPage Sec.eRollback 0 0 m.2.2)
    else { m.2.2 with busy := some { req := r, image := m.2.1 } }

/-- FW_UPDATE ends: the inactive slot holds the image, verified, and the pointer names it; the next device reset boots it on trial. -/
def endUpdate (u : Update) (flashOk : Bool) (s : State) : State :=
  let s : State := { s with busy := none }
  if u.broken then refuse u.req pvInterrupted s
  else
    let n := 1 - s.flash.slot
    if flashOk then
      let fl := if n = 0 then { s.flash with slotA := u.image, validA := true } else { s.flash with slotB := u.image, validB := true }
      respond u.req pvOk 0 [] none { s with flash := { fl with slot := n, trial := true, trials := 0 } }
    else refuse u.req pvFlashFail { s with flash := if n = 0 then { s.flash with validA := false } else { s.flash with validB := false } }

/-- FW_UPDATE: begins the update of the next request; with one under way it ends that one, after any second FW_UPDATE request has been refused with BUSY. -/
def execFwUpdate (ecdsa lms imageOk flashOk : Bool) (s : State) : Host.Outcome State Fault Refusal :=
  Host.Outcome.next (match s.busy with
    | none => sensitive 0x11 ecdsa lms (beginUpdate imageOk) s
    | some u =>
      if privetUp s = false then s
      else if u.broken = false ∧ (nextReq s).any (fun r => rqCmd r.block == 0x11) then sensitive 0x11 ecdsa lms (beginUpdate imageOk) s
      else endUpdate u flashOk s)

/-! ## Other sensitive commands (R460, R461, R477) -/

def execDebugUnlock (ecdsa lms : Bool) (s : State) : Host.Outcome State Fault Refusal :=
  Host.Outcome.next (sensitive 0x12 ecdsa lms (fun r s => respond r pvOk 0 [] none (setF prvPage Prv.debugPending 1 s)) s)

/-- The payload of GRADE_READ. -/
def gradePayload (s : State) : List Byte := leBytes 1 s.fuses.grade ++ leBytes 1 (fusedStep s) ++ leBytes 2 0 ++ leBytes 4 (fusedMax s)

def execGradeRead (ecdsa lms : Bool) (s : State) : Host.Outcome State Fault Refusal :=
  Host.Outcome.next (sensitive 0x13 ecdsa lms (fun r s => respond r pvOk 0 (gradePayload s) none s) s)

/-- DEVICE_RESET: the request is answered; the reset starts 1 ms after the completion is written, which this row then takes. -/
def execDeviceReset (ecdsa lms : Bool) (s : State) : Host.Outcome State Fault Refusal :=
  let ask := fun (s : State) => sensitive 0x14 ecdsa lms (fun r s =>
    let s := respond r pvOk 0 [] none s
    if r.src < 4 then { s with resetReq := some r.src } else { s with resetAt := some s.now }) s
  Host.Outcome.next (match s.resetAt with
    | none => ask s
    | some t => if t + msEdges ≤ s.now then deviceReset 2 s else ask s)

/-- SET_AUTHORITY: an LMS key of another type than LMS_SHA256_M32_H20 with LMOTS_SHA256_N32_W8, codes 8 and 4 of the published LMS specification, is refused. -/
def setAuthority (r : PReq) (s : State) : State :=
  let p := rqPayload r.block
  if beNat ((p.drop 96).take 4) ≠ 8 ∨ beNat ((p.drop 100).take 4) ≠ 4 then refuse r pvBadFormat s
  else respond r pvOk 0 [] none { s with flash := { s.flash with auth := p } }

def execSetAuthority (ecdsa lms : Bool) (s : State) : Host.Outcome State Fault Refusal :=
  Host.Outcome.next (sensitive 0x15 ecdsa lms setAuthority s)

/-- The entries of a SET_CONFIG payload. -/
def configEntries (p : List Byte) : List (Nat × Nat × Nat) :=
  (List.range (p.length / 16)).map (fun i => (bNat p (16 * i) 8, bNat p (16 * i + 8) 4, bNat p (16 * i + 12) 4))

/-- Entries apply at once; a port whose ETH_CFG they change goes DOWN (R273, R460). -/
def applyEntries (es : List (Nat × Nat × Nat)) (s : State) : State :=
  let t := es.foldl (fun s e => applyEntry e s) s
  [0, 1].foldl (fun t p => if ethCfg s p = ethCfg t p then t else portChanged p t) t

/-- SET_CONFIG: an address outside R460's list refuses the whole request; a region of 4,096 entries that is full is a flash failure. Accepted entries go to flash and
apply at once, and M3 is measured again (R471). -/
def setConfig (r : PReq) (s : State) : State :=
  let es := configEntries (rqPayload r.block)
  if es.any (fun e => (configTarget s e.1).isNone) then refuse r pvBadFormat s
  else if 4096 < s.flash.config.length + es.length then refuse r pvFlashFail s
  else
    let s : State := { s with flash := { s.flash with config := s.flash.config ++ es } }
    let s := applyEntries es s
    respond r pvOk 0 [] none (setDigest secPage Sec.meas 36 (configDigest s) s)

def execSetConfig (ecdsa lms : Bool) (s : State) : Host.Outcome State Fault Refusal :=
  Host.Outcome.next (sensitive 0x16 ecdsa lms setConfig s)

/-! ## Caps, telemetry and logs (R369, R460, R466) -/

/-- The cap a request sets: 1,500 W to the fused maximum. -/
def clampCap (s : State) (w : Nat) : Nat := max 1500 (min w (fusedMax s))

/-- SET_CAP: the cap is in force when its completion is written (R376). -/
def acceptCap (r : PReq) (x : Session) (s : State) : State :=
  let w := bNat (rqPayload r.block) 0 4
  let c := clampCap s w
  let s := setCap { s with flash := { s.flash with lastCap := c } }
  respond r pvOk (if c = w then 0 else 1) (leBytes 4 c ++ leBytes 4 0) (some x.mac) s

def execSetCap (s : State) : Host.Outcome State Fault Refusal := Host.Outcome.next (routine 0x21 acceptCap s)

/-- The telemetry block: its head, the Hedge entries of R394, the cluster records of R395 and its HMAC. -/
def telemetryBlock (x : Session) (s : State) : List Byte :=
  let pct := fun (off : Nat) => leBytes 4 (storedWord s pgPct off)
  let head := leBytes 8 (s.now - s.bootAt) ++ leBytes 1 (stepCode s) ++ leBytes 3 0 ++ pct 0x40 ++ pct 0x44 ++ pct 0x48 ++ pct 0x4C
  let head := head ++ List.replicate 36 0
  let hedges := (List.range 64).flatMap (fun i => pct (0x100 + 4 * i))
  let clusters := allClusters.flatMap (fun cl =>
    (List.range 4).flatMap (fun i => leBytes 4 (storedWord s ⟨cpcBase cl, .clusterControl, cl / 128⟩ (0x100 + 16 * (cl % 128) + 4 * i))))
  let body := head ++ hedges ++ clusters
  body ++ hmac384 x.mac body

/-- TELEMETRY_READ: once, or every 10 to 10,000 ms on a management connection. -/
def telemetryRead (r : PReq) (x : Session) (s : State) : State :=
  let ms := bNat (rqPayload r.block) 0 2
  if ms ≠ 0 ∧ (r.src < 4 ∨ ms < 10 ∨ 10000 < ms) then refuse r pvBadFormat s
  else
    let s : State := if ms = 0 then s else { s with sessions := tblInsert r.src { x with push := ms, pushAt := s.now } s.sessions }
    respond r pvOk 0 (telemetryBlock x s) (some x.mac) s

def execTelemetryRead (s : State) : Host.Outcome State Fault Refusal := Host.Outcome.next (routine 0x22 telemetryRead s)

/-- TELEMETRY: a push that a connection's session asked for is due. -/
def telemetryPush (k : Nat) (s : State) : State :=
  match sessionOf s (4 + k) with
  | none => s
  | some x =>
    if privetUp s = false ∨ x.push = 0 ∨ s.now < x.pushAt + x.push * msEdges then s
    else
      let x := { x with pushAt := s.now, count := x.count + 1 }
      sendBlock k mkTelemetry 0 x.count (telemetryBlock x s) { s with sessions := tblInsert (4 + k) x s.sessions }

def execTelemetryPush (k : ConnId) (s : State) : Host.Outcome State Fault Refusal := Host.Outcome.next (telemetryPush k.val s)

/-- The 32 bytes of a journal record (R436). -/
def recordBytes (j : JRec) : List Byte :=
  leBytes 4 j.seq ++ leBytes 4 j.powerOn ++ leBytes 4 j.boot ++ leBytes 8 j.edges ++ leBytes 1 j.cls ++ leBytes 1 j.blkType ++ leBytes 2 j.inst ++
    leBytes 2 j.code ++ leBytes 1 j.hedge ++ [0] ++ leBytes 4 j.info

/-- JOURNAL_READ: up to 200 records from FROM_SEQ, oldest first, in flash and in the buffer. -/
def journalRead (r : PReq) (x : Session) (s : State) : State :=
  let p := rqPayload r.block
  let n := bNat p 4 4
  if n < 1 ∨ 200 < n then refuse r pvBadFormat s
  else
    let l := ((s.flash.journal ++ s.jbuf).filter (fun j => decide (bNat p 0 4 ≤ j.seq))).take n
    respond r pvOk 0 (l.flatMap recordBytes) (some x.mac) s

def execJournalRead (s : State) : Host.Outcome State Fault Refusal := Host.Outcome.next (routine 0x23 journalRead s)

/-- The 16 bytes of a log entry (R403). -/
def defectBytes (d : Defect) : List Byte :=
  leBytes 1 d.kind ++ leBytes 1 d.cause ++ leBytes 1 d.source ++ [0] ++ leBytes 4 d.unit ++ leBytes 4 d.boot ++ leBytes 4 d.powerOn

/-- LOG_READ: up to 400 entries from an entry number. -/
def logRead (r : PReq) (x : Session) (s : State) : State :=
  let p := rqPayload r.block
  let n := bNat p 4 4
  if n < 1 ∨ 400 < n then refuse r pvBadFormat s
  else respond r pvOk 0 (((s.dlog.drop (bNat p 0 4)).take n).flatMap defectBytes) (some x.mac) s

def execLogRead (s : State) : Host.Outcome State Fault Refusal := Host.Outcome.next (routine 0x24 logRead s)

/-! ## Tables and keys (R460, R464) -/

/-- STEER_TABLE: `key` is the group key as it unwraps; none where its tag fails. A count of 0 deletes the table. -/
def steerTable (key : Option (List Byte)) (r : PReq) (x : Session) (s : State) : State :=
  let p := rqPayload r.block
  let g := bNat p 0 1
  let own := bNat p 1 1
  let n := bNat p 2 1
  match key with
  | none => refuse r pvBadHmac (setErr secPage Sec.eBadHmac 0 0 s)
  | some k =>
    if 64 < n ∨ (n ≠ 0 ∧ n ≤ own) then refuse r pvBadFormat s
    else
      let members := (List.range n).map (fun i => [beNat ((p.drop (8 + 32 * i)).take 16), beNat ((p.drop (24 + 32 * i)).take 16)])
      let tabs := if n = 0 then tblErase g s.flash.steer else tblInsert g { own := own, members := members, key := k } s.flash.steer
      respond r pvOk 0 [] (some x.mac) { s with flash := { s.flash with steer := tabs } }

def execSteerTable (key : Option (List Byte)) (s : State) : Host.Outcome State Fault Refusal :=
  Host.Outcome.next (routine 0x25 (steerTable key) s)

/-- MACSEC_KEY: an association takes the unwrapped key; a transmit key is the one sent under from then on, and ends REKEY. -/
def macsecKey (key : Option (List Byte)) (r : PReq) (x : Session) (s : State) : State :=
  let p := rqPayload r.block
  let i := bNat p 0 1
  let dir := bNat p 1 1
  let an := bNat p 2 1
  match key with
  | none => refuse r pvBadHmac (setErr secPage Sec.eBadHmac 0 0 s)
  | some k =>
    if 4 ≤ i ∨ 2 ≤ dir ∨ 4 ≤ an then refuse r pvBadFormat s
    else
      let m : MacAssoc := { ssci := bNat p 4 4, salt := (p.drop 8).take 12, key := k }
      let s : State := { s with macKeys := tblInsert (8 * i + 4 * dir + an) m s.macKeys }
      let s := if dir = 0 then setF (ethPage (i / 2)) Eth.rekey 0 (putIfc i { getIfc s i with txAn := some an } s) else s
      respond r pvOk 0 [] (some x.mac) s

def execMacsecKey (key : Option (List Byte)) (s : State) : Host.Outcome State Fault Refusal :=
  Host.Outcome.next (routine 0x26 (macsecKey key) s)

/-! ## Attestation (R476) -/

/-- The words of the four measurements. -/
def measWords (s : State) : List Byte := (List.range 48).flatMap (fun i => leBytes 4 (getF s secPage Sec.meas i))

/-- A degraded configuration (R6, R251). -/
def degradedNow (s : State) : Bool := getF s bupPage Bup.state == 2 || decide (getF s msmPage Msm.nch < 192) || decide (getF s bupPage Bup.mask ≠ 2 ^ 32 - 1)

/-- The 384-byte report, the HSS index `n` being that of its signature. -/
def attestReport (nonce : List Byte) (n : Nat) (s : State) : List Byte :=
  let flags := getF s prvPage Prv.debug + (if degradedNow s then 2 else 0) + 4 * getF s prvPage Prv.trial + (if 2 ^ 20 < s.flash.hss + 65536 then 8 else 0)
  leBytes 4 0x50524154 ++ leBytes 2 1 ++ leBytes 2 flags ++ leBytes 16 s.fuses.serial ++ nonce ++ leBytes 1 s.fuses.grade ++ leBytes 1 (fusedStep s) ++
    leBytes 2 (fusedMax s / 10) ++ leBytes 1 s.fuses.svn ++ leBytes 1 (getF s prvPage Prv.imageSvn) ++ leBytes 1 s.flash.slot ++ [0] ++
    leBytes 4 s.powerOn ++ leBytes 4 s.bootNo ++ leBytes 4 (getF s bupPage Bup.mask) ++ leBytes 2 (getF s bupPage Bup.cores) ++
    leBytes 1 (getF s msmPage Msm.nch) ++ leBytes 1 (getF s inpPage Inp.good) ++ leBytes 4 n ++ leBytes 4 0 ++ measWords s ++
    sha384 (s.dlog.flatMap defectBytes) ++ leBytes 2 s.dlog.length ++ leBytes 6 0 ++ sha384 s.flash.auth

/-- ATTEST: the report and its two signatures. -/
def attest (r : PReq) (x : Session) (s : State) : State :=
  if hssSpent s then refuse r pvHssExhausted s
  else
    let n := s.flash.hss
    let sg := sign s
    respond r pvOk 0 (attestReport (rqPayload r.block) n sg.2 ++ sg.1) (some x.mac) sg.2

def execAttest (s : State) : Host.Outcome State Fault Refusal := Host.Outcome.next (routine 0x27 attest s)

end Sys2Proof.Machine
end

