-- ==== Sys2Proof/Machine/Registers.lean ====
section
/-!
DEFINITION. Register words as software reads and writes them, by R8 to R10, R456, R457 and R502 to R517: the common header, the words that show a unit's
running state, who may read and write a page, and what a write of each word does.
-/
namespace Sys2Proof.Machine

/-! ## Pages and their units -/

/-- The logical core whose window a page lies in. -/
def pageCore (pg : Page) : Option Nat :=
  match pg.ty with
  | .router => if pg.inst < 0x8000 then some pg.inst else none
  | .arrays => some pg.inst
  | .scratchpad => some pg.inst
  | .vectorSet => some pg.inst
  | .sequencer => some pg.inst
  | .tagBuffer => some pg.inst
  | .counterBank => if pg.inst / 0x1000 = 1 then some (pg.inst % 0x1000) else none
  | _ => none

/-- The physical site whose window a page lies in. -/
def pageSite (pg : Page) : Option Nat :=
  match pg.ty with
  | .router => if pg.inst < 0x8000 then none else some (pg.inst - 0x8000)
  | .site => some pg.inst
  | _ => none

/-- The number of a bank page. -/
def pageBank (pg : Page) : Nat := if pg.inst / 0x1000 = 1 then pg.inst % 0x1000 else 4096 + (pg.base - bankPage 0) / 0x1000

/-- The number of a queue page. -/
def pageQueue (pg : Page) : Nat :=
  match pg.ty with
  | .queue 0x21 => pg.inst
  | .queue 0x25 => 32 + pg.inst
  | .queue 0x27 => 96 + pg.inst
  | _ => 128 + pg.inst

/-- A page of the Privet aperture that is not a Mailbox queue's (R457). -/
def privetOwn (pg : Page) : Bool :=
  decide (prvPage ≤ pg.base) && (match pg.ty with
    | .queue _ => false
    | _ => true)

/-- BLK_LOCK: STATE and HOLD_CAUSE (R456, R457). -/
def pageLock (s : State) (pg : Page) : Nat × Nat :=
  if privetOwn pg ∨ (pageSite pg).isSome then (2, 0)
  else if deviceReady s = false then (if prvPage ≤ pg.base then (0, 0) else (1, 1))
  else
    let cause := match pageCore pg with
      | some c => if coreAbsent s c then 0 else coreHold s c
      | none => match pg.ty with
        | .spring => if (tblGet {} s.clus pg.inst).recalAt.isSome then 5 else 0
        | .clusterClock => if (tblGet {} s.clus pg.inst).recalAt.isSome then 5 else 0
        | _ => 0
    if cause = 0 then (0, 0) else (1, cause)

/-- BLK_STAT.ABSENT and RETIRED (R513). -/
def pageAbsent (s : State) (pg : Page) : Bool :=
  match pageCore pg with
  | some c => coreAbsent s c
  | none => match pg.ty with
    | .interface => !ifcPresent s pg.inst
    | _ => false

def pageRetired (s : State) (pg : Page) : Bool :=
  match pageSite pg with
  | some p => clusterGone s (clusterOfSite p)
  | none => match pg.ty with
    | .channel => mcState s pg.inst == mcRetired
    | _ => false

/-- A word of the common header (R509 to R515). No page of the Privet aperture but the Mailbox queues' sends EVENTs (R511). -/
def headWord (s : State) (pg : Page) (off : Nat) : Nat :=
  let lock := pageLock s pg
  match off with
  | 0x00 => pg.inst % 2 ^ 16 + 2 ^ 16 + pageCode pg.ty * 2 ^ 24
  | 0x04 => pageIsrBits pg.ty + pageErrBits pg.ty * 2 ^ 8 + b2n (pageHasErrAddr pg.ty) * 2 ^ 16 + b2n (!privetOwn pg) * 2 ^ 17
  | 0x0C => b2n (pageAbsent s pg) + b2n (pageRetired s pg) * 2 + b2n (getF s pg.base Hdr.err != 0) * 4 + b2n (getF s pg.base Hdr.isr != 0) * 8 +
      b2n (lock.1 == 1) * 16
  | 0x28 => lock.1 + lock.2 * 16
  | _ => storedWord s pg off

/-! ## Words that show running state -/

/-- The word with a field replaced. -/
def withField (f : Field) (v n : Nat) : Nat := n - bitsOf n f.lo f.len * 2 ^ f.lo + v % 2 ^ f.len * 2 ^ f.lo

def modeCode : CoreMode → Nat
  | .off => 0
  | .idle => 1
  | .run => 2
  | .done => 3
  | .frozen => 4
  | .fault => 5
  | .test => 6

/-- The sequencer page (R132, R133). -/
def seqWord (s : State) (c off : Nat) : Nat :=
  let k := getCore s c
  match off with
  | 0x40 => modeCode k.mode + k.entry % 64 * 2 ^ 3 + k.loops.length * 2 ^ 9 + b2n (!k.setq.isEmpty) * 2 ^ 12 + b2n k.arm.isSome * 2 ^ 13 +
      b2n (!k.strs.isEmpty) * 2 ^ 14 + b2n (!k.puts.isEmpty) * 2 ^ 15 + b2n k.barWait.isSome * 2 ^ 16
  | 0x44 => k.pc % 2 ^ 17
  | 0x48 => k.arg % 2 ^ 32
  | 0x4C => k.arg / 2 ^ 32 % 2 ^ 32
  | 0x50 => k.cyc % 2 ^ 32
  | 0x54 => k.cyc / 2 ^ 32 % 2 ^ 16
  | 0x58 => k.hold % 2 ^ 32
  | _ =>
    if 0x100 ≤ off ∧ off < 0x200 then
      let v := (sreg k ((off - 0x100) / 8)).toNat
      if off % 8 = 0 then v % 2 ^ 32 else v / 2 ^ 32
    else 0

/-- ARR_STAT, ARR_SLOT_STATE and ARR_ROWSTAT (R89, R91, R93). -/
def arrWord (s : State) (c off : Nat) : Option Nat :=
  let k := getCore s c
  if off = 0x44 then
    let streaming := (k.ops.filter (fun o => o.stage == .streaming)).flatMap (fun o => opMembers o.shape o.ksplit o.sub)
    some ((List.range 4).foldl (fun n i => n + b2n (decide (i ∈ streaming)) * 2 ^ i) 0 +
      (List.range 16).foldl (fun n i => n + b2n (slotBusy k i) * 2 ^ (4 + i)) 0 + queueDepth k * 2 ^ 20 + k.ramp * 2 ^ 24)
  else if off = 0x4C then
    some ((List.range 16).foldl (fun n i => n + (match shownTag k i with
      | .float => 0
      | .int => 1
      | .stacks => 2) * 4 ^ i) 0)
  else if 0x400 ≤ off ∧ off < 0x800 then
    let r := tblGet {} k.stats ((off - 0x400) / 8)
    some (if off % 8 = 0 then r.m else (fround (fspec .fp32) false (daVal r.s)).1)
  else none

/-- Descriptors that have started and have no record in the ring yet (R236): a record that the ring holds back leaves its descriptor in flight. -/
def queInFlight (k : Queue) : Nat := (k.flights.filter (fun f => f.started)).length + (k.compl.filter (fun d => d.started)).length

/-- A queue page (R234 to R236); a FE queue's HEDGE is its number, and Q_DOORBELL and Q_CTL read zero. -/
def queWord (s : State) (q : Nat) (pg : Page) (off : Nat) : Nat :=
  let k := getQueue s q
  match off with
  | 0x40 => withField Que.hedge (queHedge s q) (storedWord s pg off)
  | 0x44 => queState s q + queInFlight k % 16 * 2 ^ 3 + b2n (queWaiting s q) * 2 ^ 7 + b2n k.dbErr * 2 ^ 8 +
      b2n k.cfgErr * 2 ^ 9
  | 0x58 => 0
  | 0x68 => 0
  | _ => storedWord s pg off

/-- HEDGE_STAT (R237). -/
def hedgeStat (s : State) (h : Nat) : Nat :=
  let k := getHedge s h
  hCode k.state + b2n k.owner.isSome * 2 ^ 4 + k.owner.getD 0 * 2 ^ 5 + b2n k.commitB * 2 ^ 17 + b2n k.postmortem * 2 ^ 18 + b2n k.spareExh * 2 ^ 19

def connCode : ConnState → Nat
  | .free => 0
  | .opening => 1
  | .opened => 2
  | .closing => 3

/-- A connection entry (R290). -/
def connWord (s : State) (k : Nat) (hi : Bool) : Nat :=
  let c := getConn s k
  let mask := fun (p : Path → Bool) => (List.range 4).foldl (fun n i => n + b2n (p (getPath c i)) * 2 ^ i) 0
  if hi then c.unacked.length + c.retx % 2 ^ 16 * 2 ^ 16
  else connCode c.state + c.kind * 4 + mask (fun p => p.inUse && !p.suspect) * 2 ^ 4 + mask (fun p => p.suspect) * 2 ^ 8 + b2n c.devEvents * 2 ^ 12

/-- A counter or a window of a bank page (R486, R492): LO words show the count, HI words its latch. -/
def countWord (s : State) (b off : Nat) : Option Nat :=
  let lo := fun n => some (bankCount s b n % 2 ^ 32)
  let hi := fun n => some (if bankGone s b then 0 else tblGet 0 (getBank s b).latch n)
  if 0x80 ≤ off ∧ off < 0xE0 then (if off % 8 = 0 then lo ((off - 0x80) / 8) else hi ((off - 0x80) / 8))
  else if 0x100 ≤ off ∧ off < 0x1C0 then
    let w := (off - 0x100) / 0x10
    match off % 0x10 with
    | 0x0 => lo (16 + w)
    | 0x4 => hi (16 + w)
    | 0x8 => lo (32 + w)
    | _ => hi (32 + w)
  else none

/-- The LO word that a read latches. -/
def latchOf (off : Nat) : Option Nat :=
  if 0x80 ≤ off ∧ off < 0xE0 ∧ off % 8 = 0 then some ((off - 0x80) / 8)
  else if 0x100 ≤ off ∧ off < 0x1C0 ∧ off % 0x10 = 0 then some (16 + (off - 0x100) / 0x10)
  else if 0x100 ≤ off ∧ off < 0x1C0 ∧ off % 0x10 = 8 then some (32 + (off - 0x100) / 0x10)
  else none

/-- The words of a router page that show the map and the Hedge table (R192 to R194). -/
def rtrWord (s : State) (p : Nat) (pg : Page) (off : Nat) : Nat :=
  if off = 0x40 then rtrCfg s p
  else if off = 0x44 then
    let b := (routerTable s p).getD (plotOfSite p) 0
    let h := b % 32
    let bound := b / 32 % 2
    storedWord s pg off + h + bound * 2 ^ 5 + b2n (bound == 1 && (getHedge s h).state == .frozen) * 2 ^ 6 + b2n (decide (s.now < tblGet 0 s.mapHold p)) * 2 ^ 7
  else if off = 0x48 then (List.range 6).foldl (fun n i => n + (getSkid s p i).occ * 8 ^ i) 0
  else if 0x80 ≤ off ∧ off < 0xA0 then leNat (((routerTable s p).drop (off - 0x80)).take 4 |>.map (BitVec.ofNat 8))
  else storedWord s pg off

/-- SITE_STAT (R507). -/
def siteStat (s : State) (p : Nat) : Nat :=
  let lower := fun role lcore => role + lcore * 2 ^ 2
  let role := if clusterGone s (clusterOfSite p) then lower 3 0 else if p ∈ s.holes then lower 2 0
    else match coreOfSite s p with
      | some c => lower 0 c
      | none => lower 1 0
  role + getF s (sitePage p) Site.alive * 2 ^ 14 + b2n (passThrough s p) * 2 ^ 15 + b2n (decide (p ∈ inTest s)) * 2 ^ 16 + b2n (decide (p ∈ s.retired)) * 2 ^ 17

/-- MACsec protects the port: it is on, and every interface of the port has a key to send with (R287). -/
def macsecActive (s : State) (p : Nat) : Bool :=
  getF s (ethPage p) Eth.macsecEn == 1 && ([2 * p, 2 * p + 1].filter (ifcPresent s)).all (fun i => (getIfc s i).txAn.isSome)

/-- The FEC cause of R273 occurred on the port in the last millisecond. -/
def fecDegraded (s : State) (p : Nat) : Bool :=
  [2 * p, 2 * p + 1].any (fun i => match (getIfc s i).fecDown with
    | none => false
    | some t => decide (s.now < t + msEdges))

/-- The security page's words that show flash and sessions (R480). -/
def secWord (s : State) (pg : Page) (off : Nat) : Nat :=
  let fl := s.flash
  match off with
  | 0x40 => fl.sreq % 2 ^ 32
  | 0x44 => fl.sreq / 2 ^ 32 % 2 ^ 32
  | 0x48 => min fl.hss (2 ^ 20 - 1) + b2n (hssSpent s) * 2 ^ 21 + b2n (decide (2 ^ 20 < fl.hss + 65536)) * 2 ^ 22
  | 0x4C =>
    let live := s.sessions.filter (fun e => sessionLive s e.1 e.2)
    (List.range 4).foldl (fun n q => n + b2n (live.any (fun e => e.1 == q)) * 2 ^ q) 0 + min 255 (live.filter (fun e => decide (4 ≤ e.1))).length * 2 ^ 4
  | _ => if 0x200 ≤ off ∧ off < 0x230 then leNat (((sha384 (fl.auth.take 152)).drop (off - 0x200)).take 4) else storedWord s pg off

/-- CLK_VTAB word w of a cluster (R363). -/
def vtabWord (s : State) (cl w : Nat) : Nat := (List.range 4).foldl (fun n i => n + fusedV s cl (10 + 4 * w + i) % 256 * 256 ^ i) 0

/-- A site entry: the origin errors of the last 24 h and the CEs of the last hour as they stand now (R451). -/
def siteWord (s : State) (p stored : Nat) : Nat :=
  let n := fun (span : Nat) (t : Tbl (List Nat)) => (recent s span (tblGet [] t p)).length
  withField Ste.uc24h (min 255 (n (86400 * secEdges) s.siteUc)) (withField Ste.ce1h (min 65535 (n (3600 * secEdges) s.siteCe)) stored)

/-- A word at or past offset 0x40, read by a party that owns the Hedge numbers `mine` says. -/
def bodyWord (mine : Nat → Bool) (s : State) (pg : Page) (off : Nat) : Nat :=
  let stored := storedWord s pg off
  match pg.ty with
  | .sequencer => seqWord s pg.inst off
  | .arrays => (arrWord s pg.inst off).getD stored
  | .vectorSet => if off = 0x44 then (getCore s pg.inst).vl else stored
  | .scratchpad => if off = 0x40 then withField Spm.retention (b2n (sprState s (clusterOfCore s pg.inst) == sprRetention)) stored else stored
  | .router => rtrWord s ((pg.base - siteWindow 0) / 0x10000) pg off
  | .site => if off = 0x40 then siteStat s pg.inst else stored
  | .counterBank => if bankGone s (pageBank pg) then 0 else (countWord s (pageBank pg) off).getD stored
  | .spring => if off = 0x40 then withField Spr.wakePhase (wakePhase pg.inst) stored else stored
  | .clusterClock =>
    if off = 0x48 then tblGet 0 s.fuses.trim pg.inst % 16
    else if 0x80 ≤ off ∧ off < 0x98 then vtabWord s pg.inst ((off - 0x80) / 4) else stored
  | .queue _ => queWord s (pageQueue pg) pg off
  | .hedge => if off = 0x40 then 0 else if off = 0x44 then hedgeStat s pg.inst else stored
  | .eventCounters =>
    let i := 256 * pg.inst + (off - 0x800) / 8
    if off < 0x800 ∨ mine (ctrHome i) = false then 0
    else if off % 8 = 0 then tblGet 0 s.evt i % 2 ^ 32 else tblGet 0 s.evtLatch i % 2 ^ 32
  | .port => if off = 0x44 then withField Eth.macsecActive (b2n (macsecActive s pg.inst)) (withField Eth.fecDegrade (b2n (fecDegraded s pg.inst)) stored) else stored
  | .connections => if off < 0x800 then 0 else connWord s (256 * pg.inst + (off - 0x800) / 8) (off % 8 == 4)
  | .privetStatus =>
    let fl := s.flash
    if off = 0x44 then stored % 2 ^ 16 / 2 ^ 8 * 2 ^ 8 + s.fuses.svn % 2 ^ 7 + fl.slot % 2 * 2 ^ 16 + getF s prvPage Prv.trial * 2 ^ 17 + b2n fl.validA * 2 ^ 18 +
      b2n fl.validB * 2 ^ 19
    else if off = 0x48 then fl.capDef else stored
  | .security => secWord s pg off
  | .siteEntries => if off < 0x800 then stored else siteWord s (512 * pg.inst + (off - 0x800) / 4) stored
  | .reference => if off = 0x48 then withField Ref.fuseMax (fusedStep s) stored else stored
  | _ => stored

/-- A word of a page. A disabled plot's core shows BLK_ID, BLK_CAP and ABSENT; a router of a dark or retired cluster in its site window shows its header (R24,
R507). -/
def pageWord (mine : Nat → Bool) (s : State) (pg : Page) (off : Nat) : Nat :=
  if (pageCore pg).isSome ∧ pageAbsent s pg = true then
    (if off = 0 ∨ off = 4 then headWord s pg off else if off = 0x0C then 1 else 0)
  else if off < 0x40 then headWord s pg off
  else if pg.ty = .router ∧ pageRetired s pg = true then 0
  else bodyWord mine s pg off

/-! ## Reads -/

/-- A connection may read a page (R516). -/
def mayRead (s : State) (conn : Nat) (pg : Page) : Bool :=
  match pageCore pg with
  | some c => mayReadCore s conn c
  | none => true

/-- A read waits: for a scrub or a shift of the core, or for its cluster to be clocked; it asks for the wake (R517). -/
def readWaits (pg : Page) (s : State) : Bool × State :=
  match pageCore pg with
  | none => (false, s)
  | some c =>
    if coreAbsent s c then (false, s)
    else
      let cl := clusterOfCore s c
      let asleep := clkState s cl == 2 || clkState s cl == 3
      let s := if asleep then wakeCluster cl s else s
      (asleep || (coreHolds s c).any (fun x => x == 2 || x == 4), s)

/-- What reading a word changes: a counter's latch, an event counter's latch for its owner, an RC field (R8, R211, R487). -/
def readEffect (mine : Nat → Bool) (pg : Page) (off : Nat) (s : State) : State :=
  match pg.ty with
  | .counterBank => match latchOf off with
    | some n => latchCount (pageBank pg) n s
    | none => s
  | .eventCounters =>
    let i := 256 * pg.inst + (off - 0x800) / 8
    if 0x800 ≤ off ∧ off % 8 = 0 ∧ mine (ctrHome i) = true then latchEvt i s else s
  | .channel => if off = 0x58 then setF pg.base Mc.hold 0 s else s
  | _ => s

/-- Reads one word. -/
def readWord (mine : Nat → Bool) (pg : Page) (off : Nat) (s : State) : Nat × State := (pageWord mine s pg off, readEffect mine pg off s)

/-! ## Writes of the common header (R512, R514, R515) -/

/-- A page owes an EVENT. -/
def oweEvent (base : Nat) (s : State) : State := if base ∈ s.evtDue then s else { s with evtDue := s.evtDue ++ [base] }

/-- Enabled status bits that are set. -/
def enabledSet (s : State) (base : Nat) : Nat :=
  (getF s base Hdr.isr + getF s base Hdr.err * 2 ^ 16) % 2 ^ 32 &&& getF s base Hdr.ien

/-- EVT_HOLD: a change from 1 to 0 owes one EVENT where an enabled bit is set. -/
def holdWrite (base v : Nat) (s : State) : State :=
  let was := getF s base Hdr.evtHold
  let s := setF base Hdr.evtHold (v % 2) s
  if was = 1 ∧ v % 2 = 0 ∧ enabledSet s base ≠ 0 then oweEvent base s else s

/-- Status and enable bits a page type has (R511). -/
def enableMask (ty : PageType) : Nat := 2 ^ pageIsrBits ty - 1 + (2 ^ pageErrBits ty - 1) * 2 ^ 16

/-- BLK_IEN: an enable set while its status bit is 1 owes one EVENT. -/
def ienWrite (pg : Page) (v : Nat) (s : State) : State :=
  let new := v &&& enableMask pg.ty
  let was := getF s pg.base Hdr.ien
  let s := setF pg.base Hdr.ien new s
  if enabledSet s pg.base &&& (new - (new &&& was)) = 0 ∨ getF s pg.base Hdr.evtHold = 1 then s else oweEvent pg.base s

/-- Bits of n that v does not name. -/
def clearBits (n v : Nat) : Nat := n - (n &&& v)

/-- BLK_ERR: clearing CSUM_MISMATCH frees ARR_CSUM_INFO, and clearing SUSPECT frees NE_SUSPECT (R94, R319). -/
def errWrite (pg : Page) (v : Nat) (s : State) : State :=
  let s := setF pg.base Hdr.err (clearBits (getF s pg.base Hdr.err) v) s
  match pg.ty with
  | .arrays => if v.testBit Arr.eCsumMismatch then setF pg.base Arr.csumValid 0 s else s
  | .networkEngine => if v.testBit Ne.eSuspect then setF pg.base Ne.suspValid 0 s else s
  | _ => s

def headWrite (pg : Page) (off v : Nat) (s : State) : State :=
  match off with
  | 0x08 => holdWrite pg.base v s
  | 0x10 => setF pg.base Hdr.isr (clearBits (getF s pg.base Hdr.isr) v) s
  | 0x14 => ienWrite pg v s
  | 0x18 => errWrite pg v s
  | _ => s

/-! ## Writes of a page's own words -/

/-- A word carries other bits for a PW field than a read shows: an attempt (R9). The channel and key registers of the MACsec page read zero (R272);
which of its words they are the spec does not say, and every word after the header counts as one here (DESIGN CHOICE). -/
def pwAttempt (s : State) (pg : Page) (off v : Nat) : Bool :=
  (pg.ty == .macsec && v != 0) ||
    (wordFields pg off).any (fun e => e.1.acc == .pw && bitsOf v e.1.lo e.1.len != getF s pg.base e.1 e.2)

/-- A word carries other bits for BLK_LOCK's STATE or HOLD_CAUSE than an OPEN page shows: an attempt on a PW field (R9, R456). -/
def lockAttempt (off v : Nat) : Bool := off == 0x28 && (bitsOf v 0 2 != 0 || bitsOf v 4 4 != 0)

/-- RW fields take their values, W1C bits clear; other fields stay. Answers whether a PW field was attempted. -/
def plainWrite (pg : Page) (off v : Nat) (s : State) : Bool × State :=
  let bad := pwAttempt s pg off v
  let s := writeStored pg off v (2 ^ 32 - 1) (fun f => f.acc == .rw) s
  let s := (wordFields pg off).foldl (fun s e =>
    if e.1.acc = .w1c then setF pg.base e.1 (clearBits (getF s pg.base e.1 e.2) (bitsOf v e.1.lo e.1.len)) s e.2 else s) s
  (bad, s)

/-- Any word of a page whose fields need no more than R8 to R10. -/
def anyWrite (pg : Page) (off v : Nat) (s : State) : Bool × State :=
  if off < 0x40 then (false, headWrite pg off v s) else plainWrite pg off v s

/-- CNT_CTL and CNT_SEL (R487, R491). -/
def bankWrite (pg : Page) (off v : Nat) (s : State) : State :=
  let b := pageBank pg
  let was := getF s pg.base Cnt.bwLog2
  let s := (plainWrite pg off v s).2
  if off ≠ 0x40 then s
  else
    let s := if getF s pg.base Cnt.bwLog2 = was then s else changeWindow b s
    if v.testBit 1 then clearCounts b s else s

/-- Words of a core window. -/
def coreWrite (pg : Page) (off v : Nat) (s : State) : Bool × State :=
  if pg.ty = .counterBank ∧ 0x40 ≤ off then (false, bankWrite pg off v s) else anyWrite pg off v s

/-- A queue page, for its owner (R201, R234 to R236). The rings' bases may change while EN is 0. -/
def queWrite (q : Nat) (pg : Page) (off v : Nat) (s : State) : State :=
  let k := getQueue s q
  if off < 0x40 then headWrite pg off v s
  else if off = 0x44 then putQueue q { k with dbErr := k.dbErr && !v.testBit 8, cfgErr := k.cfgErr && !v.testBit 9 } s
  else if 0x48 ≤ off ∧ off < 0x58 ∧ getF s pg.base Que.en = 1 then s
  else if off = 0x58 then doorbell q v s
  else if off = 0x68 then
    let s := if v.testBit 0 then resetQueue q s else s
    if v.testBit 1 then resumeQueue q s else s
  else (plainWrite pg off v s).2

def queueWrite (conn : Nat) (pg : Page) (off v : Nat) (s : State) : Bool × State :=
  let q := pageQueue pg
  if off = 0x40 then (if mayWriteCfg s conn q v then (false, writeCfg q v s) else (true, s))
  else if ownsHedge s conn (queHedge s q) then (false, queWrite q pg off v s) else (true, s)

/-- HEDGE_CTL (R200, R237): CLAIM by anyone while the number has no owner, the rest by its owner. -/
def hedgeCtl (conn h v : Nat) (s : State) : Bool × State :=
  let s := if v.testBit 0 then claim conn h s else s
  if ownsHedge s conn h = false then (true, s)
  else
    let s := if v.testBit 1 then release conn h s else s
    let s := if v.testBit 2 then kill h s else s
    let s := if v.testBit 3 ∧ mayScrub (getHedge s h) true = true ∧ (tblFind h s.shifts).isNone = true then scrubNow h s else s
    (false, s)

def hedgeWrite (conn : Nat) (pg : Page) (off v : Nat) (s : State) : Bool × State :=
  if off = 0x40 then hedgeCtl conn pg.inst v s
  else if ownsHedge s conn pg.inst then anyWrite pg off v s else (true, s)

/-- One SEG_OWNER byte (R202, R238). A byte that carries what it shows changes nothing. HEDGE takes the value written also where ASSIGNED stays or becomes 0; an
unassigned entry belongs to the number the byte writes. -/
def segByte (conn g v : Nat) (s : State) : Bool × State :=
  if getF s segPage Seg.count ≤ g ∨ v % 64 = segOwner s g then (false, s)
  else if v.testBit 5 then
    if segAssigned s g = true ∨ segScrubbing s g = true ∨ ownsHedge s conn (v % 32) = false then (true, s) else (false, segAssign g (v % 32) s)
  else if segAssigned s g then
    (if ownsHedge s conn (segHedge s g) then (false, segRelease g (v % 32) s) else (true, s))
  else if ownsHedge s conn (v % 32) then (false, setSegOwner g (v % 32) s) else (true, s)

def segWrite (conn : Nat) (pg : Page) (off v : Nat) (s : State) : Bool × State :=
  if off < 0x100 ∨ 0x100 + 744 ≤ off then anyWrite pg off v s
  else (List.range 4).foldl (fun (a : Bool × State) i =>
    let r := segByte conn (off - 0x100 + i) (v / 256 ^ i % 256) a.2
    (a.1 || r.1, r.2)) (false, s)

/-- An event counter page (R211, R516). -/
def evtWrite (conn : Nat) (pg : Page) (off v : Nat) (s : State) : Bool × State :=
  let k := pg.inst
  if off < 0x40 then
    if ownsHedge s conn (2 * k) ∨ ownsHedge s conn (2 * k + 1) then (false, headWrite pg off v s) else (true, s)
  else if off < 0x800 then (false, s)
  else
    let i := 256 * k + (off - 0x800) / 8
    if ownsHedge s conn (ctrHome i) = false then (true, s)
    else if off % 8 = 4 then (false, { s with evtStage := tblPut 0 s.evtStage i v })
    else (false, ctrSet i (tblGet 0 s.evtStage i * 2 ^ 32 + v) s)

/-- COL_DEV (R493): a claim, or HEDGE alone while no one holds the stream. -/
def devWrite (conn v : Nat) (s : State) : Bool × State :=
  let h := v % 32
  let held := getF s colPage Col.devHeld == 1
  if held then ((v.testBit 5 || h != getF s colPage Col.devHedge) || !holdsDevice s conn, s)
  else if ownsHedge s conn h = false then (true, s)
  else if v.testBit 5 then (false, claimDevice conn h s)
  else (false, setF colPage Col.devHedge h s)

/-- The collector page (R493, R497). -/
def colWrite (conn : Nat) (pg : Page) (off v : Nat) (s : State) : Bool × State :=
  if off = 0x48 then devWrite conn v s
  else if off < 0x100 ∨ 0x100 + 33 * 0x20 ≤ off then anyWrite pg off v s
  else
    let st := (off - 0x100) / 0x20
    if (if st < 32 then ownsHedge s conn st else holdsDevice s conn) = false then (true, s)
    else match off % 0x20 with
      | 0x00 => (false, if getF s colPage Col.strEn st = 1 then s else setF colPage Col.baseLo (v - v % 128) s st)
      | 0x04 => (false, if getF s colPage Col.strEn st = 1 then s else setF colPage Col.baseHi v s st)
      | 0x10 => (false, payStream st (setF colPage Col.head v s st))
      | _ => (false, (plainWrite pg off v s).2)

/-- A bank page outside the cores (R489, R516). -/
def bankPageWrite (conn : Nat) (pg : Page) (off v : Nat) (s : State) : Bool × State :=
  if off < 0x40 then (false, headWrite pg off v s)
  else if off = 0x40 ∨ (0x60 ≤ off ∧ off < 0x80) then
    if holdsDevice s conn then (false, bankWrite pg off v s) else (true, s)
  else (false, s)

/-- The Network Engine page (R294, R318). -/
def neWrite (conn : Nat) (pg : Page) (off v : Nat) (s : State) : Bool × State :=
  if off < 0x100 ∨ 0x100 + 64 * 32 ≤ off then anyWrite pg off v s
  else
    let c := (off - 0x100) / 32
    let w := (off - 0x100) % 32 / 4
    if mayWriteComm s conn c w v then (false, writeComm c w v s) else (true, s)

/-- One word of a REG_WR by a host connection: whether it was refused, and the state (R9, R516). -/
def writeWord (conn : Nat) (pg : Page) (off v : Nat) (s : State) : Bool × State :=
  if (pageLock s pg).1 ≠ 0 ∨ lockAttempt off v = true then (true, s)
  else match pageCore pg with
    | some c => if mayWriteCore s conn c then coreWrite pg off v s else (true, s)
    | none => match pg.ty with
      | .queue _ => queueWrite conn pg off v s
      | .hedge => hedgeWrite conn pg off v s
      | .segmentTable => segWrite conn pg off v s
      | .eventCounters => evtWrite conn pg off v s
      | .collector => colWrite conn pg off v s
      | .counterBank => bankPageWrite conn pg off v s
      | .networkEngine => neWrite conn pg off v s
      | _ => anyWrite pg off v s

/-- EVT_HOLD_RELEASE: a write of 0 to BLK_CTL.EVT_HOLD of the page at an address. -/
def execEvtHoldRelease (conn : ConnId) (a : BitVec 48) (s : State) : Host.Outcome State Fault Refusal :=
  Host.Outcome.next (match pageAt s a.toNat with
    | none => s
    | some pg => (writeWord conn pg 0x08 0 s).2)

/-- BLK_IEN_WRITE: a write of BLK_IEN of the page at an address. -/
def execBlkIenWrite (conn : ConnId) (a : BitVec 48) (v : Word32) (s : State) : Host.Outcome State Fault Refusal :=
  Host.Outcome.next (match pageAt s a.toNat with
    | none => s
    | some pg => (writeWord conn pg 0x14 v.toNat s).2)

/-! ## The debug connector (R477) -/

/-- The scratchpad of an offered core or a byte of Mere. -/
def debugMem (s : State) (a n : Nat) : Bool :=
  (decide (a + n ≤ 4096 * spmSize) && (siteOf s (a / spmSize)).isSome && decide (a / spmSize = (a + n - 1) / spmSize)) ||
    decide (mereBase ≤ a ∧ a + n ≤ mereEnd s)

/-- The core whose scratchpad n bytes at an address touch: an access to one whose cluster sleeps waits for it to wake (R146). -/
def debugCores (a n : Nat) : List Nat := rangeCores [(a, n)]

/-- A read by the connector, which acts for no Hedge. -/
def debugRead (a n : Nat) (s : State) : Bool × List Byte × State :=
  if a < mereBase then
    let r := engRead 0 a n s
    (r.1.isNone, r.2.1, r.2.2)
  else mereRead none a n s

/-- A register write by the connector: the effect an owner's write has; it can claim no Hedge number. -/
def debugWrite (pg : Page) (off v : Nat) (s : State) : State :=
  match pg.ty with
  | .queue _ => if off = 0x40 then writeCfg (pageQueue pg) v s else queWrite (pageQueue pg) pg off v s
  | .hedge =>
    let h := pg.inst
    if off ≠ 0x40 then (anyWrite pg off v s).2
    else
      let s := if v.testBit 1 ∧ (getHedge s h).state = .unbound then endOwnership h s else s
      let s := if v.testBit 2 then kill h s else s
      if v.testBit 3 ∧ mayScrub (getHedge s h) true = true ∧ (tblFind h s.shifts).isNone = true then scrubNow h s else s
  | .segmentTable =>
    if off < 0x100 ∨ 0x100 + 744 ≤ off then (anyWrite pg off v s).2
    else (List.range 4).foldl (fun s i =>
      let g := off - 0x100 + i
      let b := v / 256 ^ i % 256
      if b % 64 = segOwner s g then s else if b.testBit 5 then segAssign g (b % 32) s
      else if segAssigned s g then segRelease g (b % 32) s else setSegOwner g (b % 32) s) s
  | .eventCounters =>
    let i := 256 * pg.inst + (off - 0x800) / 8
    if off < 0x800 then headWrite pg off v s
    else if off % 8 = 4 then { s with evtStage := tblPut 0 s.evtStage i v }
    else ctrSet i (tblGet 0 s.evtStage i * 2 ^ 32 + v) s
  | .counterBank => if off < 0x40 then headWrite pg off v s else bankWrite pg off v s
  | .networkEngine =>
    if off < 0x100 ∨ 0x100 + 64 * 32 ≤ off then (anyWrite pg off v s).2 else writeComm ((off - 0x100) / 32) ((off - 0x100) % 32 / 4) v s
  | _ => (anyWrite pg off v s).2

/-- DEBUG_CONNECTOR_ACCESS: while DEBUG is set, any register, scratchpad or Mere outside Privet. Reads act as an owner's, writes keep each field's access code. -/
def debugAccess (op : DebugOp) (s : State) : State :=
  if getF s prvPage Prv.debug = 0 then s
  else
    let out := fun (bs : List Byte) (s : State) => { s with outbox := s.outbox ++ [.debug bs] }
    match op with
    | .regRead a =>
      if prvPage ≤ a.toNat ∨ a.toNat % 4 ≠ 0 then s
      else match pageAt s a.toNat with
        | none => s
        | some pg =>
          let w := readWaits pg s
          if w.1 then w.2
          else
            let r := readWord (fun _ => true) pg (a.toNat % 0x1000) s
            out (leBytes 4 r.1) r.2
    | .regWrite a v =>
      if prvPage ≤ a.toNat ∨ a.toNat % 4 ≠ 0 then s
      else match pageAt s a.toNat with
        | none => s
        | some pg => if pageAbsent s pg then s else debugWrite pg (a.toNat % 0x1000) v.toNat s
    | .memRead a n =>
      if debugMem s a.toNat n.val = false then s
      else if anyAsleep s (debugCores a.toNat n.val) then wakeCores (debugCores a.toNat n.val) s
      else
        let r := debugRead a.toNat n.val (memCount a.toNat n.val s)
        if r.1 then out r.2.1 r.2.2 else r.2.2
    | .memWrite a bytes =>
      if debugMem s a.toNat bytes.length = false then s
      else if anyAsleep s (debugCores a.toNat bytes.length) then wakeCores (debugCores a.toNat bytes.length) s
      else engWrite a.toNat bytes (memCount a.toNat bytes.length s)

def execDebugConnectorAccess (op : DebugOp) (s : State) : Host.Outcome State Fault Refusal := Host.Outcome.next (debugAccess op s)

end Sys2Proof.Machine
end

