-- ==== Sys2Proof/Machine/Transfer.lean ====
section
/-!
DEFINITION. The Transfer Engine, by R203 and R226 to R229: every range is checked before a byte moves, an uncorrectable read ends the
descriptor with the earlier granules written, and a descriptor that touches a frozen Hedge's scratchpads waits.
-/
namespace Sys2Proof.Machine

/-- The started descriptor of a queue with an opcode and a ring index. -/
def flightAt (s : State) (q op i : Nat) : Option Flight :=
  (getQueue s q).flights.find? (fun f => f.started && dOp f.desc == op && f.index == i)

/-- Granules and rows moved and the bytes read and written by one command, from how many bytes to how many (R485, R491). The bytes read are those written,
none for FILL, with the indices of GATHER and SCATTER. -/
def countMoved (q op : Nat) (d : List Byte) (before bytes : Nat) (s : State) : State :=
  let table : Bool := op == 2 || op == 3
  let row := max 1 (dNat d 0x28 4)
  let rows := if table then bytes / row - before / row else 0
  let n := bytes - before
  let s := engineEv q 0x02 rows (engineEv q 0x01 ((bytes + 63) / 64 - (before + 63) / 64) s)
  engineBytes q 1 n (engineBytes q 0 (if op = 4 then 0 else n + 4 * rows) s)

/-- The ranges a Transfer Engine descriptor reads. -/
def teReads (d : List Byte) : List (Nat × Nat) :=
  match dOp d with
  | 1 => stridedRows (dNat d 0x10 8) (dNat d 0x28 8) (dNat d 0x20 4) (dNat d 0x24 4)
  | 4 => []
  | 5 => stridedRows (dNat d 0x10 8) (dNat d 0x28 4) (dNat d 0x24 4 * fmtBytes (convFmts d).1) (dNat d 0x20 4)
  | _ => tableRanges d

/-- Moves a started Transfer Engine descriptor on: every range is checked first, then `work` moves its granules, to the end or to the granule before which the
engine pauses. It waits while it touches scratchpads of a FROZEN Hedge (R226) and until sleeping clusters have woken (R146). A parity error on the engine's
path ends it with DATA_UC before it moves anything more (R239). -/
def runTransfer (q op i : Nat) (pause : Option Word32) (parityBad : Bool) (work : Leg → List Byte → State → Moved × State) (s : State) : State :=
  match flightAt s q op i with
  | none => s
  | some f =>
    let d := f.desc
    let h := queHedge s q
    let cores := rangeCores (teRanges d)
    if q < 32 ∨ 96 ≤ q ∨ spmFrozen s h (teRanges d) = true then s
    else match rangesFail s h (teRanges d) with
      | some a => complete q f { denied a with nflags := f.nflags } s
      | none =>
        if anyAsleep s cores then wakeCores cores s
        else if parityBad then
          let p := engineParity q (teReads d) s
          complete q f { p.1 with nflags := f.nflags } p.2
        else
          let m := work ⟨f.units, pause.map (fun n => f.units + n.toNat)⟩ d s
          let s := countMoved q op d f.bytes m.1.bytes m.2
          let nf := f.nflags ||| m.1.flags
          match m.1.stop with
          | some e => complete q f { e with nflags := nf } s
          | none =>
            if m.1.held then putFlight q { f with units := m.1.units, bytes := m.1.bytes, nflags := nf } s
            else complete q f { detail := m.1.bytes, nflags := nf } s

/-! ## COPY and FILL -/

def copyWork (q : Nat) (g : Leg) (d : List Byte) (s : State) : Moved × State :=
  let n := dNat d 0x20 4
  runRows (fun r u s => moveRow q g (dNat d 0x10 8 + r * dNat d 0x28 8) (dNat d 0x18 8 + r * dNat d 0x30 8) n u s)
    (if n = 0 then [] else List.range (dNat d 0x24 4)) {} s

/-- COPY. -/
def execCopy (q : QueueId) (i : Stretch) (parityBad : Bool) (s : State) : Host.Outcome State Fault Refusal :=
  Host.Outcome.next (runTransfer q 1 i.index.toNat i.pause parityBad (copyWork q) s)

/-- Writes a row of computed bytes granule by granule, from its place among the granules of the transfer. -/
def writeRow (q : Nat) (g : Leg) (dst n before : Nat) (byte : Nat → Byte) (s : State) : Moved × State :=
  let parts := granules dst n
  let r := runRows (fun (p : Nat × Nat) u s => oneUnit g (before + u) p.2 (wrote (dst + p.1) ((List.range p.2).map (fun i => byte (p.1 + i)))) s) parts {} s
  let done' := skipBytes parts (g.skip - before)
  (r.1, engTraffic q none (dst + done') (r.1.bytes - done') true r.2)

/-- FILL: the pattern repeats from DST, granule by granule. -/
def fillWork (q : Nat) (g : Leg) (d : List Byte) (s : State) : Moved × State :=
  writeRow q g (dNat d 0x10 8) (dNat d 0x18 8) 0 (fun i => patByte (dNat d 0x20 8) i) s

def execFill (q : QueueId) (i : Stretch) (parityBad : Bool) (s : State) : Host.Outcome State Fault Refusal :=
  Host.Outcome.next (runTransfer q 4 i.index.toNat i.pause parityBad (fillWork q) s)

/-! ## GATHER and SCATTER -/

/-- Runs `row` for each entry of the index list: its row number and index. `skip` is what an index of 0xFFFF_FFFF does. -/
def byIndex (q : Nat) (d : List Byte) (row : Nat → Nat → Nat → State → Moved × State) (skip : Nat → Nat → State → Moved × State) (s : State) :
    Moved × State :=
  runRows (fun r u s =>
    let a := dNat d 0x18 8 + 4 * r
    let x := engRead (queHedge s q) a 4 (engTraffic q none a 4 false s)
    match x.1 with
    | some bad => ({ stop := some (dataUc bad) }, x.2.2)
    | none =>
      let i := leNat x.2.1
      if i = 0xFFFFFFFF then skip r u x.2.2
      else if dNat d 0x38 4 ≤ i then ({ stop := some { status := stDescInvalid, detail := r } }, x.2.2)
      else row r i u x.2.2) (List.range (dNat d 0x2C 4)) {} s

def gatherWork (q : Nat) (g : Leg) (d : List Byte) (s : State) : Moved × State :=
  let n := dNat d 0x28 4
  byIndex q d (fun r i u s => moveRow q g (dNat d 0x10 8 + i * dNat d 0x30 8) (dNat d 0x20 8 + r * n) n u s)
    (fun r u s => writeRow q g (dNat d 0x20 8 + r * n) n u (fun _ => 0) s) s

/-- GATHER. -/
def execGather (q : QueueId) (i : Stretch) (parityBad : Bool) (s : State) : Host.Outcome State Fault Refusal :=
  Host.Outcome.next (runTransfer q 2 i.index.toNat i.pause parityBad (gatherWork q) s)

/-- A code of a format as DA48 bytes or its own bytes, after one rounding (R41, R53). -/
def addElem (f : Fmt) (a b : Nat) : Nat × Nat :=
  match f with
  | .da48 => let r := daAdd (daOfContainer a) (daOfContainer b); (daContainer r.1, r.2 ||| (if numIsNan (daVal r.1) then flagNanOut else 0))
  | _ =>
    let x := numSum [fdecode (fspec f) a, fdecode (fspec f) b]
    let r := fround (fspec f) false x.1
    (r.1, x.2 ||| r.2)

/-- Adds one element at `src` into `dst`, as one unit of the transfer. -/
def addAt (q : Nat) (g : Leg) (f : Fmt) (src dst u : Nat) (s : State) : Moved × State :=
  let w := fmtBytes f
  let h := queHedge s q
  oneUnit g u w (fun s =>
    let x := engRead h src w s
    match x.1 with
    | some bad => ({ stop := some (dataUc bad) }, x.2.2)
    | none =>
      let y := engRead h dst w x.2.2
      match y.1 with
      | some bad => ({ stop := some (dataUc bad) }, y.2.2)
      | none =>
        let r := addElem f (leNat y.2.1) (leNat x.2.1)
        ({ units := 1, bytes := w, flags := r.2 }, engWrite dst (leBytes w r.1) y.2.2)) s

def scatterWork (q : Nat) (g : Leg) (d : List Byte) (s : State) : Moved × State :=
  let n := dNat d 0x28 4
  byIndex q d (fun r i u s =>
      let src := dNat d 0x20 8 + r * n
      let dst := dNat d 0x10 8 + i * dNat d 0x30 8
      if dNat d 0x3C 1 = 0 then moveRow q g src dst n u s
      else match fmtOf (dNat d 0x3D 1) with
        | some f =>
          let w := fmtBytes f
          let m := runRows (fun k v s => addAt q g f (src + k * w) (dst + k * w) (u + v) s) (List.range (n / w)) {} s
          let done' := min n ((g.skip - u) * w)
          (m.1, engTraffic q (some (src + done')) (dst + done') (m.1.bytes - done') false (rowTraffic q src dst done' m.1.bytes m.2))
        | none => ({}, s))
    (fun _ _ s => ({}, s)) s

/-- SCATTER: rows in ascending order, assigned or added. -/
def execScatter (q : QueueId) (i : Stretch) (parityBad : Bool) (s : State) : Host.Outcome State Fault Refusal :=
  Host.Outcome.next (runTransfer q 3 i.index.toNat i.pause parityBad (scatterWork q) s)

/-! ## CONVERT -/

/-- One element converted: the stored bytes as a number, and the flags (R53 to R56). -/
def convertElem (f g : Fmt) (sat : Bool) (x : Nat) : Nat × Nat :=
  let v := match f with
    | .da48 => daVal (daOfContainer x)
    | _ => fdecode (fspec f) x
  let r := fround (fspec g) sat v
  match g with
  | .da48 => (daContainer r.1, r.2)
  | _ => r

/-- One row of a CONVERT: its elements up to the first that cannot be read, written in order, by granules where the row is contiguous in DST. -/
def convertRow (q : Nat) (g : Leg) (d : List Byte) (r before : Nat) (s : State) : Moved × State :=
  let cols := dNat d 0x24 4
  let f := convFmts d
  let w := fmtBytes f.1
  let v := fmtBytes f.2
  let fl := dNat d 0x32 1
  let a := dNat d 0x10 8 + r * dNat d 0x28 4
  let x := engRead (queHedge s q) a (cols * w) s
  let good := match x.1 with
    | some bad => min cols ((bad - a) / w)
    | none => cols
  let es := (List.range good).map (fun c => convertElem f.1 f.2 (fl.testBit 1) (leNat ((x.2.1.drop (c * w)).take w)))
  let m := if fl.testBit 0 then
      runRows (fun (c : Nat) u s =>
        let e := es.getD c (0, 0)
        let dst := dNat d 0x18 8 + c * dNat d 0x2C 4 + r * v
        oneUnit g (before + u) v (fun s =>
          let p := wrote dst (leBytes v e.1) s
          ({ p.1 with flags := e.2 }, engTraffic q (some (a + c * w)) dst v true p.2)) s) (List.range good) {} x.2.2
    else
      let bs := (es.map (fun e => leBytes v e.1)).flatten
      let p := writeRow q g (dNat d 0x18 8 + r * dNat d 0x2C 4) bs.length before (fun i => bs.getD i 0) x.2.2
      ({ p.1 with flags := es.foldl (fun n e => n ||| e.2) 0 }, p.2)
  let moved := if m.1.held then m.1 else { m.1 with stop := x.1.map dataUc }
  let done' := min (cols * w) ((g.skip - before) * (if fl.testBit 0 then w else 64))
  (moved, engTraffic q none (a + done') (if done' < good * w then good * w - done' else 0) false m.2)

def convertWork (q : Nat) (g : Leg) (d : List Byte) (s : State) : Moved × State :=
  runRows (fun r u s => convertRow q g d r u s) (if dNat d 0x24 4 = 0 then [] else List.range (dNat d 0x20 4)) {} s

/-- CONVERT. -/
def execConvert (q : QueueId) (i : Stretch) (parityBad : Bool) (s : State) : Host.Outcome State Fault Refusal :=
  Host.Outcome.next (runTransfer q 5 i.index.toNat i.pause parityBad (convertWork q) s)

end Sys2Proof.Machine
end

