-- ==== Sys2Proof/Machine/Transport.lean ====
section
/-!
DEFINITION. The ports and Rasis as they meet the outside, by R267 to R292: the receive filter, link faults and failover, connections, timers,
requests and their completions, and events.
-/
namespace Sys2Proof.Machine

/-! ## Received bytes (R269, R275, R276) -/

/-- A header of 32 bytes and what follows it. -/
def parseWire (b : List Byte) : Wire :=
  { type := bNat b 0 1 % 16, flags := bNat b 1 1, dst := bNat b 2 2, src := bNat b 4 2, psn := bNat b 8 4, ack := bNat b 0xC 4, sack := bNat b 0x10 8,
    msg := bNat b 0x18 4, path := bNat b 0x1C 1, status := bNat b 0x1D 1, body := b.drop 32 }

/-- The least length of a message's body (R276 to R283, R310, R466). -/
def bodySize (w : Wire) : Nat :=
  match w.type with
  | 0 => if w.flags % 2 = 1 then 8 + 16 * bNat w.body 0 1 else 0
  | 6 => 0
  | 7 => 48
  | 8 => 64
  | 9 => 32
  | _ => 16

/-- A SYN's body: one to four addresses, a kind, and no reserved bit (R278). -/
def synFormed (b : List Byte) : Bool :=
  decide (1 ≤ bNat b 0 1 ∧ bNat b 0 1 ≤ 4 ∧ bNat b 1 1 ≤ 2 ∧ bNat b 2 2 ≤ 1 ∧ bNat b 4 4 = 0)

/-- No reserved bit of a message's body is set (R276, R282, R283). -/
def bodyClear (w : Wire) : Bool :=
  match w.type with
  | 1 | 2 | 3 | 4 => bNat w.body 0xC 4 == 0
  | 5 => bNat w.body 2 2 == 0 && bNat w.body 8 8 == 0
  | 7 => bNat w.body 1 3 == 0
  | _ => true

/-- A SYN that asks for a connection number: a NULL, as every SYN is (R275, R278). -/
def asksNumber (w : Wire) : Bool := w.dst == 0xFFFF && w.type == 0 && w.flags % 2 == 1

/-- The checks of R276. -/
def wireFormed (b : List Byte) : Bool :=
  let w := parseWire b
  decide (32 ≤ b.length) && bNat b 0 1 / 16 == 1 && decide (w.type ≤ 9) && decide (w.flags < 64) && decide (w.path < 4) && bNat b 0x1E 2 == 0 &&
    decide (w.sack < 2 ^ 63) && bNat b 6 2 == b.length - 32 && decide (bodySize w ≤ w.body.length) && decide (w.src < 4096) &&
    (decide (w.dst < 4096) || asksNumber w) && bodyClear w && (!(w.type == 0 && w.flags % 2 == 1) || synFormed w.body)

/-- The frame's size with its headers and FCS, and the length the ports take (R268, R271). -/
def frameLen (f : Frame) : Nat :=
  14 + 4 + (if f.saddr.toNat / 2 ^ 32 = 0xFFFF then 20 else 40) + 8 + f.bytes.length + (if f.sec.isSome then 32 else 0) + 4

/-- An address of an interface, in the form of R278. -/
def ifcAddr (s : State) (i : Nat) (f : Field) : Nat := beNat ((List.range 4).flatMap (fun w => leBytes 4 (getF s (ifcPage i) f w)))

/-- MACsec of a received frame: with it on, a known association whose frame validates and whose packet number is above every one accepted before (R272; the
rule gives replay protection no window: DESIGN CHOICE); with it off, an unprotected frame. -/
def secOk (s : State) (i : Nat) (f : Frame) : Bool :=
  if getF s (ethPage (i / 2)) Eth.macsecEn = 0 then f.sec.isNone
  else match f.sec with
    | none => false
    | some (an, pn, valid) => match tblFind (8 * i + 4 + an.val) s.macKeys with
      | none => false
      | some m => valid && decide (m.pn < pn.toNat)

/-- The packet number of an accepted frame is the highest of its association. -/
def secTake (i : Nat) (f : Frame) (s : State) : State :=
  match f.sec with
  | none => s
  | some (an, pn, _) => match tblFind (8 * i + 4 + an.val) s.macKeys with
    | none => s
    | some m => { s with macKeys := tblInsert (8 * i + 4 + an.val) { m with pn := pn.toNat } s.macKeys }

/-- The frame is for the management plane; none where VLAN and address are of neither plane. -/
def planeOf (s : State) (i : Nat) (f : Frame) : Option Bool :=
  if f.vid.val = getF s (ifcPage i) Ifc.dataVid ∧ f.vid.val ≠ 0 ∧ f.daddr.toNat = ifcAddr s i Ifc.dataAddr then some false
  else if f.vid.val = getF s (ifcPage i) Ifc.mgmtVid ∧ f.vid.val ≠ 0 ∧ f.daddr.toNat = ifcAddr s i Ifc.mgmtAddr then some true
  else none

/-- The rest of the filter of R269: destination MAC, IP and UDP. -/
def addressed (s : State) (i : Nat) (f : Frame) : Bool :=
  f.dmac.toNat == getF s (ifcPage i) Ifc.macHi * 2 ^ 32 + getF s (ifcPage i) Ifc.macLo && f.plain && f.sum &&
    f.udp.toNat == getF s rasPage Ras.udpPort && decide (frameLen f ≤ 9216)

/-! ## Delivery (R277, R279) -/

/-- A message of a connection of the wrong kind, or one that only the device sends. A request is answered instead, and a NULL has no kind. -/
def wrongKind (kind type : Nat) : Bool :=
  type == tCompletion || type == tEvent || (type == tColl && kind != 1) || (type == tMgmt && kind != 2)

/-- A packet in sequence reaches the message layer. A COLL_SEG of a kind that R310 does not give is discarded. -/
def deliver (k : Nat) (w : Wire) (s : State) : State :=
  let c := getConn s k
  if w.type = tNull then (if (w.flags / fFin) % 2 = 1 then putConn k { c with inbox := c.inbox ++ [w] } s else s)
  else if wrongKind c.kind w.type then addF rasPage Ras.badTypeCnt 1 s
  else if w.type = tColl ∧ 5 < cKind w.body then s
  else putConn k { c with inbox := c.inbox ++ [w] } s

/-- Delivers held packets while the next in sequence is among them. -/
def deliverHeld (k : Nat) : Nat → State → State
  | 0, s => s
  | n + 1, s =>
    let c := getConn s k
    match c.early.find? (fun w => w.psn == c.rxPsn) with
    | none => s
    | some w =>
      let c := { c with early := c.early.filter (fun x => x.psn != w.psn), rxPsn := (c.rxPsn + 1) % 2 ^ 32 }
      deliverHeld k n (deliver k w (putConn k c s))

/-- A packet is owed an acknowledgement; the second one is acknowledged at once. -/
def owe (k : Nat) (s : State) : State :=
  let c := getConn s k
  let s := putConn k { c with owed := c.owed + 1, owedAt := if c.owed = 0 then s.now else c.owedAt } s
  if 2 ≤ c.owed + 1 then sendAck k s else s

/-- Bytes in the reorder store: packets with their headers. -/
def storeUsed (s : State) : Nat := (s.conns.flatMap (fun e => e.2.early.map (fun w => 32 + w.body.length))).foldl (· + ·) 0

/-- A packet with a PSN: accepted from ACK_PSN to ACK_PSN + 63, exactly once. -/
def acceptPsn (k : Nat) (w : Wire) (s : State) : State :=
  let c := getConn s k
  let d := (w.psn + 2 ^ 32 - c.rxPsn) % 2 ^ 32
  if d = 0 then
    owe k (deliverHeld k 64 (deliver k w (putConn k { c with rxPsn := (c.rxPsn + 1) % 2 ^ 32 } s)))
  else if d < 64 then
    if c.early.any (fun x => x.psn == w.psn) then owe k s
    else if 2 ^ 24 < storeUsed s + 32 + w.body.length then s
    else owe k (putConn k { c with early := c.early ++ [w] } s)
  else if 2 ^ 31 ≤ d then owe k s
  else s

/-- A packet takes a PSN (R279). -/
def takesPsn (w : Wire) : Bool := w.type != tNull || w.flags % 4 != 0

/-- The connection has sent a SYN and has no answer. -/
def awaitsSyn (c : Conn) : Bool := c.state == .opening && c.unacked.any (fun x => x.wire.dst == 0xFFFF)

/-- An acknowledgement covers a packet. -/
def covers (a : AckIn) (psn : Nat) : Bool :=
  let d := (psn + 2 ^ 32 - a.ack) % 2 ^ 32
  decide (2 ^ 31 ≤ d) || (decide (1 ≤ d ∧ d ≤ 63) && a.sack.testBit (d - 1))

/-- The acknowledgement a packet carries. -/
def ackOf (i : Nat) (w : Wire) : Option AckIn :=
  let has := fun (f : Nat) => (w.flags / f) % 2 == 1
  if has fAck then some ⟨w.ack, w.sack, has fEce, has fProbe, i⟩ else none

/-- A connection takes a packet: it is OPEN, or its peer's acknowledgement of the device's answer has arrived, or the packet belongs to its opening or its
closing. Every other packet is for a connection that is not OPEN (R278, R282). -/
def takesPacket (i : Nat) (c : Conn) (w : Wire) : Bool :=
  match c.state with
  | .free => false
  | .opened => true
  | .closing => w.type == tNull
  | .opening =>
    if awaitsSyn c then w.type == tNull && ((w.flags / fFin) % 2 == 1 || (w.flags % 2 == 1 && (w.flags / fAck) % 2 == 1))
    else w.type == tNull || (c.acks ++ (ackOf i w).toList).any (fun a => c.unacked.any (fun x => x.wire.flags % 2 == 1 && covers a x.wire.psn))

/-- NO_CONN: a FIN in answer to a packet for a connection that is not OPEN, at most one in 100 µs for each source (R282). -/
def answerNoConn (i saddr : Nat) (mgmt : Bool) (w : Wire) (s : State) : State :=
  if (tblGet 0 s.noConnAt saddr ≠ 0 ∧ s.now < tblGet 0 s.noConnAt saddr - 1 + 100 * usEdges) ∨ pausedNow s i (pcpOf s i tNull) = true then s
  else
    emit i saddr (if mgmt then 2 else 0) { type := tNull, flags := fFin, dst := w.src, src := w.dst, status := rsNoConn }
      { s with noConnAt := tblInsert saddr (s.now + 1) s.noConnAt }

/-- A packet for a connection. -/
def receiveOn (i : Nat) (ce : Bool) (w : Wire) (s : State) : State :=
  let k := w.dst
  let c := getConn s k
  let has := fun (f : Nat) => (w.flags / f) % 2 == 1
  let c := { c with lastRx := s.now, ece := ce }
  if awaitsSyn c then
    if has fFin then putConn k { c with fin := some w.status } s
    else if has fSyn && has fAck then { putConn k c s with syns := s.syns ++ [(0, { w with path := i })] }
    else s
  else
    let c := { c with acks := c.acks ++ (ackOf i w).toList, usedAt := if takesPsn w then s.now else c.usedAt }
    let c := if w.type = tNull ∧ has fProbe ∧ !has fAck then { c with probes := c.probes ++ [i] } else c
    if w.type = tNull ∧ has fFin ∧ (w.status = rsRefused ∨ w.status = rsNoConn) then putConn k { c with fin := some w.status } s
    else if takesPsn w then acceptPsn k { w with path := i } (putConn k c s)
    else putConn k c s

/-! ## FRAME_RECEIVE -/

/-- FEC codewords of a frame: corrected ones are counted; uncorrectable ones also toward the cause of R273. -/
def fecCount (i : Nat) (f : Frame) (s : State) : State :=
  let pg := ethPage (i / 2)
  let s := bankEv (portBank (i / 2)) 0x06 f.fecCe (addF pg Eth.fecUcCnt f.fecUc (addF pg Eth.fecCeCnt f.fecCe s))
  let k := getIfc s i
  let times := ((List.replicate (min 17 f.fecUc) s.now ++ k.fecs).filter (fun t => decide (s.now < t + msEdges))).take 17
  if f.fecUc = 0 then s else putIfc i { k with fecs := times, fecBad := k.fecBad || decide (17 ≤ times.length) } s

/-- A frame that the filter drops, with its counter: of the port, the interface or Rasis. -/
def dropFrame (i base : Nat) (f : Field) (s : State) : State := bankEv (portBank (i / 2)) 0x07 1 (addF base f 1 s)

/-- A message on the wrong VLAN (R270): MGMT alone travels on the management VLAN, and with it the NULLs of management connections; on the data VLAN every
message but MGMT. -/
def wrongVlan (s : State) (mgmt : Bool) (w : Wire) : Bool :=
  let c := getConn s w.dst
  let plane := if w.dst = 0xFFFF then bNat w.body 1 1 == 2 else c.state == .free || c.kind == 2
  if mgmt then !(w.type == tMgmt || (w.type == tNull && plane)) else w.type == tMgmt

/-- A well-formed packet on its VLAN is accepted: a SYN that asks for a number waits for its command, a connection takes what is for it, and the rest is
answered with NO_CONN. -/
def takeWire (i : Nat) (mgmt : Bool) (f : Frame) (s : State) : State :=
  let w := parseWire f.bytes
  let b := portBank (i / 2)
  if wrongVlan s mgmt w then dropFrame i (ifcPage i) Ifc.rxDropCnt s
  else
    let s := bankBytes b 1 (frameLen f) (bankEv b 0x02 1 (bankFix b 2 1 s))
    let s := if f.ce then bankEv b 0x08 1 s else s
    if w.dst = 0xFFFF then { s with syns := s.syns ++ [(f.saddr.toNat, { w with path := i })] }
    else if takesPacket i (getConn s w.dst) w then receiveOn i f.ce w s
    else answerNoConn i f.saddr.toNat mgmt w s

/-- A pause frame that the receive side asks for: of the priorities it names the lossless ones, while priority flow control is on (R268). -/
def sendPause (i : Nat) (f : Frame) (s : State) : State :=
  match f.pause with
  | none => s
  | some (prios, quanta) =>
    let port := ethPage (i / 2)
    let named := prios.val &&& getF s port Eth.pfcPrio
    let m := protect i s
    if getF s port Eth.pfcEn = 0 ∨ named = 0 ∨ m.1 = false then s
    else
      let b := portBank (i / 2)
      let s := bankBytes b 0 (64 + (if getF s port Eth.macsecEn = 1 then 32 else 0)) (bankEv b 0x05 1 (bankFix b 1 1 m.2))
      { s with outbox := s.outbox ++ [.pause i named quanta.toNat] }

/-- The receive filter: a frame is taken, or dropped and counted by the first check it fails. -/
def filterFrame (i : Nat) (f : Frame) (s : State) : State :=
  let port := ethPage (i / 2)
  if f.parity then reportCe (pgEth (i / 2)) Eth.ePathParity none 0 0 s
  else if f.fcs = false then dropFrame i port Eth.fcsErrCnt s
  else if secOk s i f = false then
    if getF s port Eth.macsecEn = 1 then setErr port Eth.eMacsecDrop 0 0 (dropFrame i port Eth.macsecDropCnt s) else dropFrame i (ifcPage i) Ifc.rxDropCnt s
  else
    let s := secTake i f s
    match planeOf s i f with
    | none => dropFrame i (ifcPage i) Ifc.rxDropCnt s
    | some mgmt =>
      if addressed s i f = false then dropFrame i (ifcPage i) Ifc.rxDropCnt s
      else if wireFormed f.bytes = false then dropFrame i rasPage Ras.dropCnt s
      else takeWire i mgmt f s

/-- FRAME_RECEIVE: a frame arrives at an interface that is up. -/
def frameReceive (i : Nat) (f : Frame) (s : State) : State :=
  if (getIfc s i).state < ifHold then s else sendPause i f (filterFrame i f (fecCount i f s))

def execFrameReceive (i : IfcId) (f : Frame) (s : State) : Host.Outcome State Fault Refusal := Host.Outcome.next (frameReceive i f s)

/-- ARP and Neighbour Discovery: an own address of the plane that the VLAN names is answered (R269). -/
def answerAddress (i vid addr bytes : Nat) (s : State) : State :=
  let data := vid = getF s (ifcPage i) Ifc.dataVid ∧ addr = ifcAddr s i Ifc.dataAddr
  let mgmt := vid = getF s (ifcPage i) Ifc.mgmtVid ∧ addr = ifcAddr s i Ifc.mgmtAddr
  if ifHold ≤ (getIfc s i).state ∧ vid ≠ 0 ∧ (data ∨ mgmt) then
    let m := protect i s
    if m.1 then
      let b := portBank (i / 2)
      let s := bankBytes b 1 bytes (bankFix b 2 1 m.2)
      { bankBytes b 0 bytes (bankFix b 1 1 s) with outbox := s.outbox ++ [.ownAddress i (nextHopMac s i) vid addr] }
    else m.2
  else s

/-- ARP_REQUEST for an IPv4 address; request and answer take the least frame. -/
def execArpRequest (i : IfcId) (vid : Fin 4096) (addr : Word32) (s : State) : Host.Outcome State Fault Refusal :=
  Host.Outcome.next (answerAddress i vid (0xFFFF * 2 ^ 32 + addr.toNat) 68 s)

/-- NEIGHBOUR_SOLICITATION for an IPv6 address: 32 bytes of ICMPv6 in each direction. -/
def execNeighbourSolicitation (i : IfcId) (vid : Fin 4096) (addr : BitVec 128) (s : State) : Host.Outcome State Fault Refusal :=
  Host.Outcome.next (if addr.toNat / 2 ^ 32 = 0xFFFF then s else answerAddress i vid addr.toNat 94 s)

/-- Sends what waits on every connection. -/
def pumpAll (s : State) : State := s.conns.foldl (fun s e => pump e.1 64 s) s

/-- Reference edges of a pause: quanta of 512 bit times at the interface's rate. -/
def pauseEdges (s : State) (i quanta : Nat) : Nat :=
  (quanta * 512 + 3999) / (if getF s (ethPage (i / 2)) Eth.mode = 0 then 8000 else 4000)

/-- PAUSE_FRAME: a PFC frame holds the lossless priorities it names, or with no quanta releases them (R268). -/
def pauseFrame (i prios quanta : Nat) (s : State) : State :=
  let port := ethPage (i / 2)
  if (getIfc s i).state < ifHold ∨ getF s port Eth.pfcEn = 0 then s
  else
    let named := (List.range 8).filter (fun p => prios.testBit p && (getF s port Eth.pfcPrio).testBit p)
    let k := getIfc s i
    let t := named.foldl (fun t p => tblPut 0 t p (s.now + pauseEdges s i quanta)) k.paused
    let s := bankEv (portBank (i / 2)) 0x04 1 (putIfc i { k with paused := t } s)
    if quanta = 0 then pumpAll s else s

def execPauseFrame (i : IfcId) (prios : Fin 256) (quanta : Word16) (s : State) : Host.Outcome State Fault Refusal :=
  Host.Outcome.next (pauseFrame i prios quanta.toNat s)

/-! ## Links (R273, R274) -/

/-- MACsec can send no frame on an interface: its packet numbers are used up (R272). -/
def macsecSpent (s : State) (i : Nat) : Bool :=
  getF s (ethPage (i / 2)) Eth.macsecEn == 1 && (match (getIfc s i).txAn with
    | none => false
    | some an => match tblFind (8 * i + an) s.macKeys with
      | none => false
      | some m => decide (2 ^ 64 - 1 ≤ m.pn))

/-- A fault shows on its port whether or not the interface is up (R287), and takes down one that is. -/
def faultSeen (i : Nat) (k : Ifc) (s : State) : State :=
  let s := showPort (i / 2) (putIfc i k s)
  if ifHold ≤ k.state then linkDown i s else s

/-- LINK_DOWN by a cause of R273. An interface that no port mode presents sees none. -/
def linkCause (i : Nat) (cause : LinkCause) (s : State) : State :=
  let k := getIfc s i
  match cause with
  | .signal => if ifHold ≤ k.state then linkDown i s else s
  | .localFault => if k.state = ifDown then s else faultSeen i { k with localFault := true } s
  | .remoteFault => if k.state = ifDown then s else faultSeen i { k with remoteFault := true } s
  | .fec =>
    if k.state < ifHold ∨ k.fecBad = false then s
    else linkDown i (setErr (ethPage (i / 2)) Eth.eFecDegrade 0 0 (putIfc i { k with fecDown := some s.now } s))
  | .macsec => if ifHold ≤ k.state ∧ macsecSpent s i then linkDown i s else s

def execLinkDown (i : IfcId) (cause : LinkCause) (s : State) : Host.Outcome State Fault Refusal := Host.Outcome.next (linkCause i cause s)

/-- LINK_UP: auto-negotiation and training end; the link must now hold for 100 ms. -/
def linkUp (i : Nat) (s : State) : State :=
  let p := i / 2
  if (getIfc s i).state ≠ ifTraining ∨ ifcPresent s i = false then s
  else
    let k := { getIfc s i with state := ifHold, since := s.now, localFault := false, remoteFault := false, anDone := getF s (ethPage p) Eth.anEn == 1 }
    let s := showPort p (putIfc i k s)
    { s with notices := s.notices ++ [.link i true] }

def execLinkUp (i : IfcId) (s : State) : Host.Outcome State Fault Refusal := Host.Outcome.next (linkUp i s)

/-- PATH_RETURN: the link has held for 100 ms; the paths on which a PROBE has been answered return to use. -/
def pathReturn (i : Nat) (s : State) : State :=
  let k := getIfc s i
  if k.state < ifHold ∨ s.now < k.since + 100 * msEdges then s
  else
    let s := putIfc i { k with state := ifUp } s
    s.conns.foldl (fun s e =>
      let c := getConn s e.1
      let p := getPath c i
      if p.answered then pump e.1 64 (putConn e.1 (putPath i { p with inUse := true, answered := false, suspect := false, timeouts := 0 } c) s) else s) s

def execPathReturn (i : IfcId) (s : State) : Host.Outcome State Fault Refusal := Host.Outcome.next (pathReturn i s)

/-! ## Requests (R282, R401, R503) -/

/-- The oldest message of a connection, taken where it is of a type. -/
def takeRequestOf (k type : Nat) (s : State) : Option (Wire × State) :=
  let c := getConn s k
  match c.inbox with
  | [] => none
  | w :: rest => if w.type = type ∧ c.state = .opened then some (w, putConn k { c with inbox := rest, begun := false } s) else none

/-- Runs a request of an OPEN connection: on another kind than host it completes with MALFORMED. `act` answers none while the request, which has begun, waits. -/
def onRequest (k type : Nat) (act : Wire → State → Option (Nat × List Byte) × State) (s : State) : State :=
  match takeRequestOf k type s with
  | none => s
  | some (w, t) =>
    if (getConn s k).kind ≠ 0 then sendCompletion k w.msg rsMalformed [] t
    else
      let r := act w t
      match r.1 with
      | some (st, data) => sendCompletion k w.msg st data r.2
      | none => putConn k { getConn s k with begun := true } { s with wakeReqs := r.2.wakeReqs }

/-- The status of a register range before any word is touched: its form, its page, and what a device that is not READY serves. -/
def regRange (s : State) (a n : Nat) (write : Bool) : Nat × Option Page :=
  if a % 4 ≠ 0 ∨ n = 0 ∨ 256 < n ∨ a / 0x1000 ≠ (a + 4 * n - 1) / 0x1000 ∨ inRegisters a = false then (rsMalformed, none)
  else match pageAt s a with
    | none => (rsNoTarget, none)
    | some pg => if deviceReady s = false ∧ (write ∨ a < prvPage) then (rsAccess, none) else (rsOk, some pg)

/-- Words in ascending address order. -/
def readWords (mine : Nat → Bool) (pg : Page) (off : Nat) : Nat → State → List Byte × State
  | 0, s => ([], s)
  | n + 1, s =>
    let r := readWord mine pg off s
    let t := readWords mine pg (off + 4) n r.2
    (leBytes 4 r.1 ++ t.1, t.2)

/-- REG_RD. -/
def regRead (k : Nat) (w : Wire) (s : State) : Option (Nat × List Byte) × State :=
  let a := bNat w.body 0 8
  let n := bNat w.body 8 4
  match regRange s a n false with
  | (_, some pg) =>
    if mayRead s k pg = false then (some (rsAccess, []), s)
    else
      let r := readWaits pg s
      if r.1 then (none, r.2)
      else
        let d := readWords (fun h => ownsHedge s k h) pg (a % 0x1000) n r.2
        (some (rsOk, d.1), d.2)
  | (st, none) => (some (st, []), s)

def execRegRd (k : ConnId) (s : State) : Host.Outcome State Fault Refusal := Host.Outcome.next (onRequest k tRegRd (regRead k) s)

/-- Words of a write in turn; the owner is checked at each (R517). -/
def writeWords (k : Nat) (pg : Page) (off : Nat) : List Nat → State → Bool × State
  | [], s => (false, s)
  | v :: t, s =>
    let r := writeWord k pg off v s
    let q := writeWords k pg (off + 4) t r.2
    (r.1 || q.1, q.2)

/-- REG_WR: ACCESS where a word was refused; the others take their values. -/
def regWrite (k : Nat) (w : Wire) (s : State) : Option (Nat × List Byte) × State :=
  let a := bNat w.body 0 8
  let n := bNat w.body 8 4
  if w.body.length ≠ 16 + 4 * n then (some (rsMalformed, []), s)
  else match regRange s a n true with
    | (_, some pg) =>
      let r := writeWords k pg (a % 0x1000) ((List.range n).map (fun i => bNat w.body (16 + 4 * i) 4)) s
      (some (if r.1 then rsAccess else rsOk, []), r.2)
    | (st, none) => (some (st, []), s)

def execRegWr (k : ConnId) (s : State) : Host.Outcome State Fault Refusal := Host.Outcome.next (onRequest k tRegWr (regWrite k) s)

/-- The form of a memory range: aligned, of a length DATA_MAX allows, within one core's scratchpad or Mere. -/
def memForm (s : State) (w : Wire) (a n : Nat) : Bool :=
  a % 4 == 0 && n % 4 == 0 && decide (4 ≤ n ∧ n ≤ dataMax s w.path) &&
    (decide (a + n ≤ 4096 * spmSize ∧ a / spmSize = (a + n - 1) / spmSize) || decide (mereBase ≤ a ∧ a + n ≤ mereEnd s))

/-- What R155 and R203 say of a range: 0 allowed, 1 refused, 2 to wait until the core's cluster is clocked or its shift ends. -/
def memRight (s : State) (k : Nat) (write : Bool) (a n : Nat) : Nat :=
  if deviceReady s = false then 1
  else if mereBase ≤ a then
    (if (List.range (segOf (a + n - 1) + 1 - segOf a)).all (fun i =>
        segAssigned s (segOf a + i) && ownsHedge s k (segHedge s (segOf a + i)) && !segScrubbing s (segOf a + i)) then 0 else 1)
  else
    let c := a / spmSize
    match hedgeOfCore s c with
    | none => 1
    | some h =>
      let st := heldState s h
      if ownsHedge s k h = false ∨ (siteOf s c).isNone ∨ st = .scrubbing ∨ (st = .retained ∧ write) then 1
      else if clkState s (clusterOfCore s c) = 2 ∨ clkState s (clusterOfCore s c) = 3 ∨ coreMoving s c then 2
      else 0

/-- The Hedge number a range belongs to. -/
def rangeHedge (s : State) (a : Nat) : Nat := if mereBase ≤ a then segHedge s (segOf a) else (hedgeOfCore s (a / spmSize)).getD 0

/-- MEM_RD. An uncorrectable word or block returns no data. -/
def memReadReq (k : Nat) (w : Wire) (s : State) : Option (Nat × List Byte) × State :=
  let a := bNat w.body 0 8
  let n := bNat w.body 8 4
  if memForm s w a n = false then (some (rsMalformed, []), s)
  else match memRight s k false a n with
    | 0 =>
      let r := engRead (rangeHedge s a) a n (memCount a n s)
      (some (if r.1.isSome then (rsDataUc, []) else (rsOk, r.2.1)), r.2.2)
    | 1 => (some (rsAccess, []), s)
    | _ => (none, wakeCluster (clusterOfCore s (a / spmSize)) s)

def execMemRd (k : ConnId) (s : State) : Host.Outcome State Fault Refusal := Host.Outcome.next (onRequest k tMemRd (memReadReq k) s)

/-- MEM_WR. -/
def memWriteReq (k : Nat) (w : Wire) (s : State) : Option (Nat × List Byte) × State :=
  let a := bNat w.body 0 8
  let n := bNat w.body 8 4
  if memForm s w a n = false ∨ w.body.length ≠ 16 + n then (some (rsMalformed, []), s)
  else match memRight s k true a n with
    | 0 => (some (rsOk, []), engWrite a ((w.body.drop 16).take n) (memCount a n s))
    | 1 => (some (rsAccess, []), s)
    | _ => (none, wakeCluster (clusterOfCore s (a / spmSize)) s)

def execMemWr (k : ConnId) (s : State) : Host.Outcome State Fault Refusal := Host.Outcome.next (onRequest k tMemWr (memWriteReq k) s)

/-- The queue a DOORBELL names (R198). -/
def doorbellQueue (engine q : Nat) : Option Nat :=
  match engine with
  | 0 => if q < 32 then some q else none
  | 1 => if q < 64 then some (32 + q) else none
  | 2 => if q < 32 then some (96 + q) else none
  | 3 => if q < 4 then some (128 + q) else none
  | _ => none

/-- DOORBELL: a REG_WR of TAIL to the queue's Q_DOORBELL. -/
def doorbellReq (k : Nat) (w : Wire) (s : State) : Option (Nat × List Byte) × State :=
  if deviceReady s = false then (some (rsAccess, []), s)
  else match doorbellQueue (bNat w.body 0 1) (bNat w.body 1 1) with
    | none => (some (rsNoTarget, []), s)
    | some q =>
      let r := writeWord k (pgQue q) 0x58 (bNat w.body 4 4) s
      (some (if r.1 then rsAccess else rsOk, []), r.2)

def execDoorbell (k : ConnId) (s : State) : Host.Outcome State Fault Refusal := Host.Outcome.next (onRequest k tDoorbell (doorbellReq k) s)

/-- MGMT: the next fragment of a management connection; the block is acted on when it is whole. While Privet is away it waits (R446). -/
def execMgmt (k : ConnId) (s : State) : Host.Outcome State Fault Refusal :=
  Host.Outcome.next (if privetUp s then mgmtRequest k s else s)

/-! ## Connections (R278, R279) -/

/-- What a request that has begun and waits still does when its connection closes: it completes inside the device, and its COMPLETION is discarded (R284). -/
def finishBegun (k : Nat) (s : State) : State :=
  let c := getConn s k
  match c.inbox with
  | [] => s
  | w :: _ =>
    let a := bNat w.body 0 8
    let n := bNat w.body 8 4
    if c.begun = false then s
    else if w.type = tRegRd then
      match pageAt s a with
      | none => s
      | some pg => (readWords (fun h => ownsHedge s k h) pg (a % 0x1000) n s).2
    else if w.type = tMemRd then (engRead (rangeHedge s a) a n (memCount a n s)).2.2
    else if w.type = tMemWr then engWrite a ((w.body.drop 16).take n) (memCount a n s)
    else s

def showConns (s : State) : State := setF rasPage Ras.nconn ((s.conns.filter (fun e => e.2.state != .free)).length) s

/-- A connection closes: its number is free, and its owner's Hedges, its rank's collectives or its session follow (R200, R284, R316, R463). -/
def closeConn (k info : Nat) (s : State) : State :=
  let c := getConn s k
  if c.state = .free then s
  else
    let s := finishBegun k s
    let s := if (List.range 4).all (fun i => (getIfc s i).state < ifHold) then journalEvent ⟨rasPage, .rasis, 0⟩ 0xFF k s else s
    let s := if c.kind = 1 then jobsLosePeer k info s else s
    let s := showConns (addF rasPage Ras.closeCnt 1 { s with conns := tblErase k s.conns })
    if c.kind = 0 then ownerClosed k s
    else if c.kind = 1 then s
    else { s with sessions := tblErase (4 + k) s.sessions, frags := tblErase k s.frags }

/-- RAS_ADMIT admits a source: it holds no valid entry, or one whose prefix matches (R278). -/
def admitted (s : State) (saddr : Nat) : Bool :=
  let valid := (List.range 16).filter (fun e => getF s rasPage Ras.admitValid e == 1)
  let addr := fun e => beNat ([Ras.admitAddr0, Ras.admitAddr1, Ras.admitAddr2, Ras.admitAddr3].flatMap (fun f => leBytes 4 (getF s rasPage f e)))
  valid.isEmpty || valid.any (fun e =>
    let n := 128 - min 128 (getF s rasPage Ras.admitPfxLen e)
    saddr / 2 ^ n == addr e / 2 ^ n)

/-- Addresses of a SYN's body. -/
def synAddrs (b : List Byte) : List Nat := (List.range (bNat b 0 1)).map (fun a => beNat ((b.drop (8 + 16 * a)).take 16))

/-- A connection that the same sender asked for with the same SYN, initial PSN included. -/
def sameSyn (s : State) (w : Wire) : Option Nat :=
  (s.conns.find? (fun e => e.2.state != .free && e.2.peer == w.src && e.2.synPsn == w.psn && e.2.addrs == synAddrs w.body && e.2.kind == bNat w.body 1 1 && !awaitsSyn e.2)).map
    (fun e => e.1)

/-- A SYN that asks for a connection: refused, or answered with SYN and ACK on a number of the device's. -/
def openRequest (saddr : Nat) (w : Wire) (s : State) : State :=
  let kind := bNat w.body 1 1
  let opts := bNat w.body 2 2
  let refuse := emit w.path saddr kind { type := tNull, flags := fFin, dst := w.src, src := 0, status := rsRefused }
  match sameSyn s w with
  | some k =>
    match (getConn s k).unacked.find? (fun x => x.wire.flags % 2 == 1) with
    | some x => resend k w.path x s
    | none => s
  | none =>
    if admitted s saddr = false then refuse s
    else match freeConn s with
      | none => refuse s
      | some k =>
        let d := draw s
        let psn := d.1 % 2 ^ 32
        let waits : Bool := decide ((getIfc s w.path).state < ifHold) || pausedNow s w.path (pcpOf s w.path tNull)
        let a : Wire := { type := tNull, flags := fSyn + fAck, dst := w.src, src := k, psn := psn, ack := (w.psn + 1) % 2 ^ 32,
                          body := synBody (ownAddrs s (kind == 2)) kind opts }
        let c : Conn := { state := .opening, kind := kind, devEvents := opts % 2 == 1, peer := w.src, addrs := synAddrs w.body, txPsn := (psn + 1) % 2 ^ 32,
                          rxPsn := (w.psn + 1) % 2 ^ 32, synPsn := w.psn, paths := freshPaths s, unacked := [⟨a, w.path, s.now, false, !waits, waits⟩], lastRx := s.now, advanced := s.now,
                          probed := s.now, usedAt := s.now }
        emit w.path saddr kind a (showConns (putConn k c d.2))

/-- The answer to a SYN of the device's: the connection is OPEN and is acknowledged; collectives that waited for it go on. -/
def openAnswer (w : Wire) (s : State) : State :=
  let k := w.dst
  let c := getConn s k
  if awaitsSyn c = false then s
  else
    let c := { c with state := .opened, peer := w.src, addrs := synAddrs w.body, rxPsn := (w.psn + 1) % 2 ^ 32, unacked := [], advanced := s.now }
    let s := emit w.path (pathAddr c w.path) c.kind (ackWire k c 0) (putConn k c s)
    if c.kind = 1 then advanceJobs s else pump k 64 s

/-- SYN: the oldest SYN received is acted on. -/
def synArrives (s : State) : State :=
  match s.syns with
  | [] => s
  | (saddr, w) :: rest =>
    let s := { s with syns := rest }
    if w.dst = 0xFFFF then openRequest saddr w s else openAnswer w s

def execRasSyn (s : State) : Host.Outcome State Fault Refusal := Host.Outcome.next (synArrives s)

/-- FIN: it is acknowledged and the connection closes; a refused SYN ends what waited for it with REFUSED. -/
def finArrives (k : Nat) (s : State) : State :=
  let c := getConn s k
  match c.fin with
  | some st => closeConn k (if st = rsRefused then piRefused else piPeerLost) s
  | none =>
    match c.inbox with
    | [] => s
    | w :: _ => if w.type = tNull then closeConn k piPeerLost (sendAck k s) else s

def execRasFin (k : ConnId) (s : State) : Host.Outcome State Fault Refusal := Host.Outcome.next (finArrives k s)

/-! ## Acknowledgements and windows (R279 to R281) -/

/-- A path grows by one for every window of packets acknowledged, up to 64. -/
def growWindow (n : Nat) (p : Path) : Path :=
  if p.window ≤ p.grown + n then { p with window := min 64 (p.window + 1), grown := p.grown + n - p.window } else { p with grown := p.grown + n }

/-- A path halves its window, down to 4. -/
def halveWindow (p : Path) : Path := { p with window := max 4 (p.window / 2), grown := 0 }

/-- A value between two others, picked by a number. -/
def between (a b n : Nat) : Nat := min a b + n % (max a b - min a b + 1)

/-- A measured round trip: the smoothed one moves toward it and the deviation toward their distance. R280 gives the smoothing no weights and no first deviation, so how
far each moves is free. -/
def smooth (sample : Nat) (p : Path) (s : State) : Path × State :=
  let d := draw s
  let e := draw d.2
  let t := match p.trip with
    | none => (sample, between 0 sample e.1)
    | some (m, v) => (between m sample d.1, between v (max m sample - min m sample) e.1)
  ({ p with trip := some t, rto := min 160000 (max 5000 (t.1 + 4 * t.2)) }, e.2)

/-- What one acknowledgement does to the paths of the packets it covers: windows grow, timeouts end, and the last packet not sent again measures the round trip
(R280, R281). -/
def ackPath (acked : List Sent) (i : Nat) (s : State) (c : Conn) : Conn × State :=
  let mine := acked.filter (fun x => x.path == i)
  if mine.isEmpty then (c, s)
  else
    let p := growWindow mine.length { getPath c i with timeouts := 0 }
    match (mine.filter (fun x => !x.resent)).getLast? with
    | none => (putPath i p c, s)
    | some x =>
      let r := smooth (s.now - x.at_) p s
      (putPath i r.1 c, r.2)

/-- A PROBE is answered: a SUSPECT path returns to use (R280). -/
def probeAnswered (i : Nat) (c : Conn) : Conn :=
  let p := getPath c i
  putPath i (if p.suspect then { p with suspect := false, timeouts := 0, answered := true } else { p with answered := true }) c

/-- ACK: the oldest acknowledgement received on a connection. -/
def ackArrives (k : Nat) (s : State) : State :=
  let c := getConn s k
  match c.acks with
  | [] => s
  | a :: rest =>
    let acked := c.unacked.filter (fun x => covers a x.wire.psn)
    let left := c.unacked.filter (fun x => !covers a x.wire.psn)
    let moved : Bool := (left.map (fun x => x.wire.psn)).head? != (c.unacked.map (fun x => x.wire.psn)).head?
    let c := { c with acks := rest, unacked := left, advanced := if moved then s.now else c.advanced }
    let r := (List.range 4).foldl (fun (a : Conn × State) i => ackPath acked i a.2 a.1) (c, s)
    let c := if a.ece then putPath a.path (halveWindow (getPath r.1 a.path)) r.1 else r.1
    let c := if a.probe then probeAnswered a.path c else c
    let opens : Bool := c.state == .opening && acked.any (fun x => x.wire.flags % 2 == 1)
    let c := if opens then { c with state := .opened } else c
    let s := putConn k c r.2
    let s := if opens ∧ c.kind = 1 then advanceJobs s else s
    if c.state = .closing ∧ acked.any (fun x => (x.wire.flags / fFin) % 2 == 1) then closeConn k piPeerLost s else pump k 64 s

def execRasAck (k : ConnId) (s : State) : Host.Outcome State Fault Refusal := Host.Outcome.next (ackArrives k s)

/-- PROBE: answered at once, on the path it arrived on. -/
def probeArrives (k : Nat) (s : State) : State :=
  let c := getConn s k
  match c.probes with
  | [] => s
  | i :: rest =>
    let c := { c with probes := rest }
    emit i (pathAddr c i) c.kind (ackWire k c fProbe) (putConn k c s)

def execRasProbe (k : ConnId) (s : State) : Host.Outcome State Fault Refusal := Host.Outcome.next (probeArrives k s)

/-! ## Timers (R279, R280) -/

/-- ACK_TIMER: 2 µs after the oldest packet not acknowledged. -/
def ackTimer (k : Nat) (s : State) : State :=
  let c := getConn s k
  if c.owed = 0 ∨ s.now < c.owedAt + 2 * usEdges then s else sendAck k s

def execAckTimer (k : ConnId) (s : State) : Host.Outcome State Fault Refusal := Host.Outcome.next (ackTimer k s)

/-- A packet whose timeout has passed goes again: on another live path that takes it, else on its own while that is not SUSPECT; else it waits for a path. -/
def timedOut (k i : Nat) (x : Sent) (s : State) : State :=
  let c := getConn s k
  match ((List.range 4).filter (· != i) ++ [i]).find? (pathTakes s c x.wire) with
  | some j => resend k j x s
  | none => putConn k { c with unacked := c.unacked.map (fun z => if z.wire.psn = x.wire.psn then { z with held := true } else z) } s

/-- RETRANSMIT_TIMEOUT of a path: its overdue packets go again; the timeout doubles up to 1.6 ms, the window halves, and after two in a row the path is
SUSPECT. -/
def retransmit (k i : Nat) (s : State) : State :=
  let c := getConn s k
  let p := getPath c i
  let due := c.unacked.filter (fun x => x.path == i && !x.held && decide (x.at_ + p.rto ≤ s.now))
  if due.isEmpty then s
  else
    let p := halveWindow { p with rto := min 160000 (2 * p.rto), timeouts := p.timeouts + 1, suspect := p.suspect || decide (2 ≤ p.timeouts + 1) }
    due.foldl (fun s x => timedOut k i x s) (putConn k (putPath i p c) s)

def execRetransmitTimeout (k : ConnId) (path : IfcId) (s : State) : Host.Outcome State Fault Refusal := Host.Outcome.next (retransmit k path s)

/-- A PROBE leaves on a path. -/
def sendProbe (k i : Nat) (s : State) : State :=
  let c := getConn s k
  emit i (pathAddr c i) c.kind { type := tNull, flags := fProbe, dst := c.peer, src := k } s

/-- SUSPECT_PROBE: a SUSPECT path, or one whose interface has come up again, carries a PROBE every 1 ms. -/
def suspectProbe (k i : Nat) (s : State) : State :=
  let c := getConn s k
  let p := getPath c i
  if c.state ≠ .opened ∨ (getIfc s i).state < ifHold ∨ (p.suspect = false ∧ (p.inUse ∨ p.answered)) ∨ (p.probeAt ≠ 0 ∧ s.now < p.probeAt + msEdges) then s
  else sendProbe k i (putConn k (putPath i { p with probeAt := s.now } c) s)

def execSuspectProbe (k : ConnId) (path : IfcId) (s : State) : Host.Outcome State Fault Refusal := Host.Outcome.next (suspectProbe k path s)

/-- KEEPALIVE: an idle connection sends a PROBE every KEEPALIVE_MS. -/
def keepalive (k : Nat) (s : State) : State :=
  let c := getConn s k
  if c.state ≠ .opened ∨ c.unacked.isEmpty = false ∨ s.now < c.probed + getF s rasPage Ras.keepaliveMs * msEdges then s
  else match nullPath s c with
    | none => s
    | some i => sendProbe k i (putConn k { c with probed := s.now } s)

def execKeepalive (k : ConnId) (s : State) : Host.Outcome State Fault Refusal := Host.Outcome.next (keepalive k s)

/-- No valid communicator entry has a rank at a peer connection's addresses, and nothing waits on it (R295). -/
def peerUnused (s : State) (k : Nat) (c : Conn) : Bool :=
  c.kind == 1 && c.state == .opened && c.unacked.isEmpty && c.txq.isEmpty && c.inbox.isEmpty &&
    (List.range 64).all (fun i => !commValid s i || (List.range (commSize s i)).all (fun r => !connIsRank s k i r))

/-- The device closes a connection: a FIN that takes a PSN, whose acknowledgement frees the number (R279). -/
def sendFin (k : Nat) (s : State) : State :=
  let c := getConn s k
  pump k 64 (putConn k { c with state := .closing, txq := c.txq ++ [{ type := tNull, flags := fFin, dst := 0, src := k }] } s)

/-- DEAD_MS: no advance with packets outstanding, or nothing received by an idle connection, closes it; a peer connection that no communicator uses and that has been
idle for DEAD_MS is closed with a FIN (R279, R295). -/
def deadClose (k : Nat) (s : State) : State :=
  let c := getConn s k
  let dead := getF s rasPage Ras.deadMs * msEdges
  let since := if c.unacked.isEmpty then c.lastRx else c.advanced
  if c.state = .free then s
  else if since + dead ≤ s.now then closeConn k piPeerLost s
  else if peerUnused s k c = true ∧ c.usedAt + dead ≤ s.now then sendFin k s
  else s

def execDeadMs (k : ConnId) (s : State) : Host.Outcome State Fault Refusal := Host.Outcome.next (deadClose k s)

/-! ## Events (R283, R514) -/

/-- The Hedge number whose owner a page's EVENT goes to. -/
def pageHedge (s : State) (pg : Page) : Option Nat :=
  match pageCore pg with
  | some c => hedgeOfCore s c
  | none => match pg.ty with
    | .queue _ => some (queHedge s (pageQueue pg))
    | .hedge => some pg.inst
    | .eventCounters => some (2 * pg.inst)
    | _ => none

/-- The body of an EVENT. -/
def eventBody (kind source page : Nat) (record : List Byte) : List Byte :=
  leBytes 1 kind ++ List.replicate 3 0 ++ leBytes 4 source ++ leBytes 8 page ++ (record ++ List.replicate 32 0).take 32

/-- The record of a page: BLK_ISR, BLK_ERR, BLK_ERRINFO and BLK_ERRADDR as they stand. -/
def pageRecord (s : State) (base : Nat) : List Byte :=
  [getF s base Hdr.isr, getF s base Hdr.err, getF s base Hdr.errInfo, getF s base Hdr.errAddrLo, getF s base Hdr.errAddrHi].flatMap (leBytes 4)

def sendEvent (body : List Byte) (dst : List Nat) (s : State) : State :=
  dst.foldl (fun s k => sendMsg k { type := tEvent, flags := 0, dst := 0, src := k, body := body } s) s

/-- The owner of a Hedge number, as a list. -/
def ownerList (s : State) (h : Nat) : List Nat := ((getHedge s h).owner.map (fun k => [k])).getD []

/-- The page at an address for an EVENT: a router page of a core's site names that core. -/
def eventPage (s : State) (base : Nat) : Option Page :=
  match pageAt s base with
  | none => none
  | some pg => match pageSite pg with
    | some p => match coreOfSite s p with
      | some c => some { pg with inst := c }
      | none => some pg
    | none => some pg

/-- An EVENT of a page: KIND 1 for a Pond threshold, else KIND 2; to the owner of the number that holds the page, else device-wide. -/
def sendPageEvent (base : Nat) (s : State) : State :=
  match eventPage s base with
  | none => s
  | some pg =>
    let pond : Bool := pg.ty == .scratchpad && getF s base Hdr.isr &&& getF s base Hdr.ien != 0
    let source := if pg.ty = .counterBank then pg.inst % 0x1000 else pg.inst
    let dst := match pageHedge s pg with
      | some h => ownerList s h
      | none => deviceListeners s
    let addr := if pg.ty = .router ∧ pg.inst < 0x8000 then coreWindow pg.inst else base
    sendEvent (eventBody (if pond then 1 else 2) source addr (pageRecord s base)) dst s

/-- An EVENT of a notice. SOURCE of a KIND 4 EVENT is stated nowhere: it is free. -/
def sendNotice (n : Notice) (s : State) : State :=
  match n with
  | .completion h q rec' => sendEvent (eventBody 0 (queInst q) (quePage q) rec') (ownerList s h) s
  | .link i _ => sendEvent (eventBody 3 i (ethPage (i / 2)) (pageRecord s (ethPage (i / 2)))) (deviceListeners s) s
  | .fatal _ =>
    let d := draw s
    sendEvent (eventBody 4 d.1 errPage (pageRecord s errPage)) (deviceListeners s) d.2
  | .noSpare _ =>
    let d := draw s
    sendEvent (eventBody 4 d.1 bupPage (pageRecord s bupPage)) (deviceListeners s) d.2

/-- EVENT_SEND: the oldest notice, or the page that has waited longest; a page's state is read now, so bits that rose together share one EVENT. -/
def eventSend (notice : Bool) (s : State) : State :=
  if notice then
    match s.notices with
    | [] => s
    | n :: rest => sendNotice n { s with notices := rest }
  else
    match s.evtDue with
    | [] => s
    | b :: rest => if getF s b Hdr.evtHold = 1 then { s with evtDue := rest } else sendPageEvent b { s with evtDue := rest }

def execEventSend (notice : Bool) (s : State) : Host.Outcome State Fault Refusal := Host.Outcome.next (eventSend notice s)

end Sys2Proof.Machine
end

