-- ==== Sys2Proof/Machine/Dispatch.lean ====
section
/-!
DEFINITION. What each command does: one arm per constructor of Instr, each a call of its meaning.
-/
namespace Sys2Proof.Machine

def exec (i : Instr) (s : State) : Host.Outcome State Fault Refusal :=
  match i with
  | .arrMma c w => Sys2Proof.Machine.execArrMma c w s
  | .arrDrain c w => Sys2Proof.Machine.execArrDrain c w s
  | .arrClr c w => Sys2Proof.Machine.execArrClr c w s
  | .arrWait c w => Sys2Proof.Machine.execArrWait c w s
  | .arrLdd c w => Sys2Proof.Machine.execArrLdd c w s
  | .arrStreamStart c n parityBad => Sys2Proof.Machine.execArrStreamStart c n parityBad s
  | .arrayRampStep c => Sys2Proof.Machine.execArrayRampStep c s
  | .arrFoldComplete c n => Sys2Proof.Machine.execArrFoldComplete c n s
  | .arrChecksumCompare c n bad => Sys2Proof.Machine.execArrChecksumCompare c n bad s
  | .arrDrainWrite c => Sys2Proof.Machine.execArrDrainWrite c s
  | .nop c w => Sys2Proof.Machine.execNop c w s
  | .add c w => Sys2Proof.Machine.execAdd c w s
  | .sub c w => Sys2Proof.Machine.execSub c w s
  | .and c w => Sys2Proof.Machine.execAnd c w s
  | .or c w => Sys2Proof.Machine.execOr c w s
  | .xor c w => Sys2Proof.Machine.execXor c w s
  | .shl c w => Sys2Proof.Machine.execShl c w s
  | .shr c w => Sys2Proof.Machine.execShr c w s
  | .sra c w => Sys2Proof.Machine.execSra c w s
  | .mul c w => Sys2Proof.Machine.execMul c w s
  | .slt c w => Sys2Proof.Machine.execSlt c w s
  | .sltu c w => Sys2Proof.Machine.execSltu c w s
  | .li c w => Sys2Proof.Machine.execLi c w s
  | .lih c w => Sys2Proof.Machine.execLih c w s
  | .ld c w => Sys2Proof.Machine.execLd c w s
  | .ldw c w => Sys2Proof.Machine.execLdw c w s
  | .st c w => Sys2Proof.Machine.execSt c w s
  | .stw c w => Sys2Proof.Machine.execStw c w s
  | .beq c w => Sys2Proof.Machine.execBeq c w s
  | .bne c w => Sys2Proof.Machine.execBne c w s
  | .blt c w => Sys2Proof.Machine.execBlt c w s
  | .bge c w => Sys2Proof.Machine.execBge c w s
  | .jal c w => Sys2Proof.Machine.execJal c w s
  | .jr c w => Sys2Proof.Machine.execJr c w s
  | .loop c w => Sys2Proof.Machine.execLoop c w s
  | .waitc c w => Sys2Proof.Machine.execWaitc c w s
  | .rdcyc c w => Sys2Proof.Machine.execRdcyc c w s
  | .rdid c w => Sys2Proof.Machine.execRdid c w s
  | .vadd c w => Sys2Proof.Machine.execVadd c w s
  | .vsub c w => Sys2Proof.Machine.execVsub c w s
  | .vmul c w => Sys2Proof.Machine.execVmul c w s
  | .vfma c w => Sys2Proof.Machine.execVfma c w s
  | .vmin c w => Sys2Proof.Machine.execVmin c w s
  | .vmax c w => Sys2Proof.Machine.execVmax c w s
  | .vand c w => Sys2Proof.Machine.execVand c w s
  | .vor c w => Sys2Proof.Machine.execVor c w s
  | .vxor c w => Sys2Proof.Machine.execVxor c w s
  | .vshl c w => Sys2Proof.Machine.execVshl c w s
  | .vshra c w => Sys2Proof.Machine.execVshra c w s
  | .vshrl c w => Sys2Proof.Machine.execVshrl c w s
  | .vcmpeq c w => Sys2Proof.Machine.execVcmpeq c w s
  | .vcmplt c w => Sys2Proof.Machine.execVcmplt c w s
  | .vsel c w => Sys2Proof.Machine.execVsel c w s
  | .vcvt c w => Sys2Proof.Machine.execVcvt c w s
  | .vexp2 c w => Sys2Proof.Machine.execVexp2 c w s
  | .vlog2 c w => Sys2Proof.Machine.execVlog2 c w s
  | .vrsqrt c w => Sys2Proof.Machine.execVrsqrt c w s
  | .vrsum c w => Sys2Proof.Machine.execVrsum c w s
  | .vrmax c w => Sys2Proof.Machine.execVrmax c w s
  | .vrmin c w => Sys2Proof.Machine.execVrmin c w s
  | .vld c w => Sys2Proof.Machine.execVld c w s
  | .vst c w => Sys2Proof.Machine.execVst c w s
  | .vbcast c w => Sys2Proof.Machine.execVbcast c w s
  | .vext c w => Sys2Proof.Machine.execVext c w s
  | .vsetvl c w => Sys2Proof.Machine.execVsetvl c w s
  | .merge c w => Sys2Proof.Machine.execMerge c w s
  | .intersect c w => Sys2Proof.Machine.execIntersect c w s
  | .union c w => Sys2Proof.Machine.execUnion c w s
  | .diff c w => Sys2Proof.Machine.execDiff c w s
  | .join c w => Sys2Proof.Machine.execJoin c w s
  | .setRunComplete c parityBad => Sys2Proof.Machine.execSetRunComplete c parityBad s
  | .gthArm c w => Sys2Proof.Machine.execGthArm c w s
  | .gthCopy c w => Sys2Proof.Machine.execGthCopy c w s
  | .gthWait c w => Sys2Proof.Machine.execGthWait c w s
  | .strLdg c w => Sys2Proof.Machine.execStrLdg c w s
  | .strSend c w => Sys2Proof.Machine.execStrSend c w s
  | .strRecv c w => Sys2Proof.Machine.execStrRecv c w s
  | .strWait c w => Sys2Proof.Machine.execStrWait c w s
  | .pndOpen c w => Sys2Proof.Machine.execPndOpen c w s
  | .pndClose c w => Sys2Proof.Machine.execPndClose c w s
  | .pndPut c w => Sys2Proof.Machine.execPndPut c w s
  | .pndCnt c w => Sys2Proof.Machine.execPndCnt c w s
  | .pndWaitn c w => Sys2Proof.Machine.execPndWaitn c w s
  | .pndFence c w => Sys2Proof.Machine.execPndFence c w s
  | .synFence c w => Sys2Proof.Machine.execSynFence c w s
  | .synBar c w => Sys2Proof.Machine.execSynBar c w s
  | .synDone c w => Sys2Proof.Machine.execSynDone c w s
  | .barrierToken c b => Sys2Proof.Machine.execBarrierToken c b s
  | .stepStart c => Sys2Proof.Machine.execStepStart c s
  | .pondWritePacket ident parityBad => Sys2Proof.Machine.execPondWritePacket ident parityBad s
  | .pondAck ident => Sys2Proof.Machine.execPondAck ident s
  | .pondClosed c p => Sys2Proof.Machine.execPondClosed c p s
  | .lostPacket who => Sys2Proof.Machine.execLostPacket who s
  | .spmPatrol c found => Sys2Proof.Machine.execSpmPatrol c found s
  | .dynamicPacketHop ident header => Sys2Proof.Machine.execDynamicPacketHop ident header s
  | .staticFlit c mv ch err => Sys2Proof.Machine.execStaticFlit c mv ch err s
  | .plotHedgeUpdate p => Sys2Proof.Machine.execPlotHedgeUpdate p s
  | .heartbeat p alive quiet => Sys2Proof.Machine.execHeartbeat p alive quiet s
  | .heartbeatLoss p pollAlive => Sys2Proof.Machine.execHeartbeatLoss p pollAlive s
  | .qDoorbell conn q tail => Sys2Proof.Machine.execQDoorbell conn q tail s
  | .descriptorFetch q parityBad => Sys2Proof.Machine.execDescriptorFetch q parityBad s
  | .descriptorStart q => Sys2Proof.Machine.execDescriptorStart q s
  | .completionWrite q => Sys2Proof.Machine.execCompletionWrite q s
  | .bindHedge h => Sys2Proof.Machine.execBindHedge h s
  | .loadImage h => Sys2Proof.Machine.execLoadImage h s
  | .runStep h => Sys2Proof.Machine.execRunStep h s
  | .fence h => Sys2Proof.Machine.execFence h s
  | .signalEvent h => Sys2Proof.Machine.execSignalEvent h s
  | .waitEvent h => Sys2Proof.Machine.execWaitEvent h s
  | .eventWaitMet q => Sys2Proof.Machine.execEventWaitMet q s
  | .resetHedge h => Sys2Proof.Machine.execResetHedge h s
  | .scrubHedge h => Sys2Proof.Machine.execScrubHedge h s
  | .scrubComplete h => Sys2Proof.Machine.execScrubComplete h s
  | .retentionEnd h => Sys2Proof.Machine.execRetentionEnd h s
  | .stepDone h => Sys2Proof.Machine.execStepDone h s
  | .programError h c => Sys2Proof.Machine.execProgramError h c s
  | .watchdog h => Sys2Proof.Machine.execWatchdog h s
  | .hedgeFreeze h src => Sys2Proof.Machine.execHedgeFreeze h src s
  | .replay h parityBad => Sys2Proof.Machine.execReplay h parityBad s
  | .copy q n parityBad => Sys2Proof.Machine.execCopy q n parityBad s
  | .gather q n parityBad => Sys2Proof.Machine.execGather q n parityBad s
  | .scatter q n parityBad => Sys2Proof.Machine.execScatter q n parityBad s
  | .fill q n parityBad => Sys2Proof.Machine.execFill q n parityBad s
  | .convert q n parityBad => Sys2Proof.Machine.execConvert q n parityBad s
  | .allReduce q => Sys2Proof.Machine.execAllReduce q s
  | .reduceScatter q => Sys2Proof.Machine.execReduceScatter q s
  | .allGather q => Sys2Proof.Machine.execAllGather q s
  | .broadcast q => Sys2Proof.Machine.execBroadcast q s
  | .shuffle q => Sys2Proof.Machine.execShuffle q s
  | .send q => Sys2Proof.Machine.execSend q s
  | .recv q => Sys2Proof.Machine.execRecv q s
  | .request src => Sys2Proof.Machine.execRequest src s
  | .claim conn h => Sys2Proof.Machine.execClaim conn h s
  | .release conn h => Sys2Proof.Machine.execRelease conn h s
  | .kill conn h => Sys2Proof.Machine.execKill conn h s
  | .scrub conn h => Sys2Proof.Machine.execScrub conn h s
  | .reset conn q => Sys2Proof.Machine.execReset conn q s
  | .resume conn q => Sys2Proof.Machine.execResume conn q s
  | .qCfgWrite conn q v => Sys2Proof.Machine.execQCfgWrite conn q v s
  | .segOwnerAssign conn g h => Sys2Proof.Machine.execSegOwnerAssign conn g h s
  | .segOwnerRelease conn g => Sys2Proof.Machine.execSegOwnerRelease conn g s
  | .segmentFillEnd g => Sys2Proof.Machine.execSegmentFillEnd g s
  | .evtHiWrite conn n v => Sys2Proof.Machine.execEvtHiWrite conn n v s
  | .evtLoWrite conn n v => Sys2Proof.Machine.execEvtLoWrite conn n v s
  | .evtLoRead conn n => Sys2Proof.Machine.execEvtLoRead conn n s
  | .commEntryWrite conn c w v => Sys2Proof.Machine.execCommEntryWrite conn c w v s
  | .mereRequest g rq fault => Sys2Proof.Machine.execMereRequest g rq fault s
  | .merePatrol ch fault => Sys2Proof.Machine.execMerePatrol ch fault s
  | .trainingStage ch pass => Sys2Proof.Machine.execTrainingStage ch pass s
  | .mereZeroFill => Sys2Proof.Machine.execMereZeroFill s
  | .refresh ch derate => Sys2Proof.Machine.execRefresh ch derate s
  | .tempReport pkg temp => Sys2Proof.Machine.execTempReport pkg temp s
  | .powerDownEntry ch => Sys2Proof.Machine.execPowerDownEntry ch s
  | .selfRefreshEntry ch => Sys2Proof.Machine.execSelfRefreshEntry ch s
  | .retrainDue ch => Sys2Proof.Machine.execRetrainDue ch s
  | .retrainWindow ch pass hold => Sys2Proof.Machine.execRetrainWindow ch pass hold s
  | .fullRetrain ch fail hold => Sys2Proof.Machine.execFullRetrain ch fail hold s
  | .frameReceive n f => Sys2Proof.Machine.execFrameReceive n f s
  | .arpRequest n vid addr => Sys2Proof.Machine.execArpRequest n vid addr s
  | .neighbourSolicitation n vid addr => Sys2Proof.Machine.execNeighbourSolicitation n vid addr s
  | .pauseFrame n prios quanta => Sys2Proof.Machine.execPauseFrame n prios quanta s
  | .linkDown n cause => Sys2Proof.Machine.execLinkDown n cause s
  | .linkUp n => Sys2Proof.Machine.execLinkUp n s
  | .pathReturn n => Sys2Proof.Machine.execPathReturn n s
  | .rasSyn => Sys2Proof.Machine.execRasSyn s
  | .rasFin k => Sys2Proof.Machine.execRasFin k s
  | .rasAck k => Sys2Proof.Machine.execRasAck k s
  | .rasProbe k => Sys2Proof.Machine.execRasProbe k s
  | .regRd k => Sys2Proof.Machine.execRegRd k s
  | .regWr k => Sys2Proof.Machine.execRegWr k s
  | .memRd k => Sys2Proof.Machine.execMemRd k s
  | .memWr k => Sys2Proof.Machine.execMemWr k s
  | .doorbell k => Sys2Proof.Machine.execDoorbell k s
  | .mgmt k => Sys2Proof.Machine.execMgmt k s
  | .ackTimer k => Sys2Proof.Machine.execAckTimer k s
  | .retransmitTimeout k path => Sys2Proof.Machine.execRetransmitTimeout k path s
  | .suspectProbe k path => Sys2Proof.Machine.execSuspectProbe k path s
  | .keepalive k => Sys2Proof.Machine.execKeepalive k s
  | .deadMs k => Sys2Proof.Machine.execDeadMs k s
  | .eventSend notice => Sys2Proof.Machine.execEventSend notice s
  | .evtHoldRelease conn a => Sys2Proof.Machine.execEvtHoldRelease conn a s
  | .blkIenWrite conn a v => Sys2Proof.Machine.execBlkIenWrite conn a v s
  | .collData k => Sys2Proof.Machine.execCollData k s
  | .collReady k => Sys2Proof.Machine.execCollReady k s
  | .confirm k => Sys2Proof.Machine.execConfirm k s
  | .resend k => Sys2Proof.Machine.execResend k s
  | .abort k => Sys2Proof.Machine.execAbort k s
  | .counts k => Sys2Proof.Machine.execCounts k s
  | .collTimeout q index => Sys2Proof.Machine.execCollTimeout q index s
  | .barLost b st decivolts => Sys2Proof.Machine.execBarLost b st decivolts s
  | .barGood b decivolts => Sys2Proof.Machine.execBarGood b decivolts s
  | .barOvercurrent b => Sys2Proof.Machine.execBarOvercurrent b s
  | .powerFail => Sys2Proof.Machine.execPowerFail s
  | .cellFault cell => Sys2Proof.Machine.execCellFault cell s
  | .railLow millivolts deep => Sys2Proof.Machine.execRailLow millivolts deep s
  | .phaseFault cl ph => Sys2Proof.Machine.execPhaseFault cl ph s
  | .springTrip cl cause => Sys2Proof.Machine.execSpringTrip cl cause s
  | .forecast cl => Sys2Proof.Machine.execForecast cl s
  | .forecastEnd cl => Sys2Proof.Machine.execForecastEnd cl s
  | .phaseShed cl needed => Sys2Proof.Machine.execPhaseShed cl needed s
  | .wakeRequest cl => Sys2Proof.Machine.execWakeRequest cl s
  | .wakeWindow cl => Sys2Proof.Machine.execWakeWindow cl s
  | .pgood cl => Sys2Proof.Machine.execPgood cl s
  | .impedanceEstimate cl microohms => Sys2Proof.Machine.execImpedanceEstimate cl microohms s
  | .oscillatorLost o => Sys2Proof.Machine.execOscillatorLost o s
  | .clockGate cl => Sys2Proof.Machine.execClockGate cl s
  | .clockStandby cl => Sys2Proof.Machine.execClockStandby cl s
  | .clockResume cl => Sys2Proof.Machine.execClockResume cl s
  | .clockLock cl => Sys2Proof.Machine.execClockLock cl s
  | .lockLost cl => Sys2Proof.Machine.execLockLost cl s
  | .stepGo target count => Sys2Proof.Machine.execStepGo target count s
  | .stepSwitch missed => Sys2Proof.Machine.execStepSwitch missed s
  | .switchMiss cl => Sys2Proof.Machine.execSwitchMiss cl s
  | .droopDetect src => Sys2Proof.Machine.execDroopDetect src s
  | .forceMinimum src => Sys2Proof.Machine.execForceMinimum src s
  | .forceMinRelease edges => Sys2Proof.Machine.execForceMinRelease edges s
  | .issueLimiterPeriod cl iout vout est => Sys2Proof.Machine.execIssueLimiterPeriod cl iout vout est s
  | .moduleLoopPeriod pIn pPer => Sys2Proof.Machine.execModuleLoopPeriod pIn pPer s
  | .stepDecision fit => Sys2Proof.Machine.execStepDecision fit s
  | .thermalSample cl t0 t1 t2 t3 predicted => Sys2Proof.Machine.execThermalSample cl t0 t1 t2 t3 predicted s
  | .thermalHoldRelease cl => Sys2Proof.Machine.execThermalHoldRelease cl s
  | .mereThermalReduction => Sys2Proof.Machine.execMereThermalReduction s
  | .weightRefit cl ws residual => Sys2Proof.Machine.execWeightRefit cl ws residual s
  | .estimateCheck cl => Sys2Proof.Machine.execEstimateCheck cl s
  | .recalibration cl gainErr => Sys2Proof.Machine.execRecalibration cl gainErr s
  | .epochEnd => Sys2Proof.Machine.execEpochEnd s
  | .steerReport k => Sys2Proof.Machine.execSteerReport k s
  | .steerGrant k => Sys2Proof.Machine.execSteerGrant k s
  | .steerAccept k => Sys2Proof.Machine.execSteerAccept k s
  | .steerRefuse k => Sys2Proof.Machine.execSteerRefuse k s
  | .steerReturn k => Sys2Proof.Machine.execSteerReturn k s
  | .leaseExp => Sys2Proof.Machine.execLeaseExp s
  | .privetWake osc0 osc1 fusesOk okA okB => Sys2Proof.Machine.execPrivetWake osc0 osc1 fusesOk okA okB s
  | .bulkEnable fails millivolts => Sys2Proof.Machine.execBulkEnable fails millivolts s
  | .fuseMapRead => Sys2Proof.Machine.execFuseMapRead s
  | .clusterWave res => Sys2Proof.Machine.execClusterWave res s
  | .seamRepair bundles sigs links paths edges => Sys2Proof.Machine.execSeamRepair bundles sigs links paths edges s
  | .mapBuild => Sys2Proof.Machine.execMapBuild s
  | .runtimeImageBroadcast fails => Sys2Proof.Machine.execRuntimeImageBroadcast fails s
  | .knownAnswerRun fails => Sys2Proof.Machine.execKnownAnswerRun fails s
  | .ethernetBringUp => Sys2Proof.Machine.execEthernetBringUp s
  | .readyStage => Sys2Proof.Machine.execReadyStage s
  | .stageBudget => Sys2Proof.Machine.execStageBudget s
  | .shiftPlan h => Sys2Proof.Machine.execShiftPlan h s
  | .shiftCopy h lane => Sys2Proof.Machine.execShiftCopy h lane s
  | .shiftCommit h => Sys2Proof.Machine.execShiftCommit h s
  | .plannedRetirement p => Sys2Proof.Machine.execPlannedRetirement p s
  | .fieldTest p out => Sys2Proof.Machine.execFieldTest p out s
  | .fieldTestYield p => Sys2Proof.Machine.execFieldTestYield p s
  | .fieldTestVote => Sys2Proof.Machine.execFieldTestVote s
  | .journalCommit => Sys2Proof.Machine.execJournalCommit s
  | .privetWatchdogReset => Sys2Proof.Machine.execPrivetWatchdogReset s
  | .resetN edges => Sys2Proof.Machine.execResetN edges s
  | .powerOnReset b decivolts => Sys2Proof.Machine.execPowerOnReset b decivolts s
  | .inventoryRead off => Sys2Proof.Machine.execInventoryRead off s
  | .identityRead => Sys2Proof.Machine.execIdentityRead s
  | .statusRead => Sys2Proof.Machine.execStatusRead s
  | .sessionOpen ecdsa lms => Sys2Proof.Machine.execSessionOpen ecdsa lms s
  | .fwUpdate ecdsa lms imageOk flashOk => Sys2Proof.Machine.execFwUpdate ecdsa lms imageOk flashOk s
  | .debugUnlock ecdsa lms => Sys2Proof.Machine.execDebugUnlock ecdsa lms s
  | .gradeRead ecdsa lms => Sys2Proof.Machine.execGradeRead ecdsa lms s
  | .deviceReset ecdsa lms => Sys2Proof.Machine.execDeviceReset ecdsa lms s
  | .setAuthority ecdsa lms => Sys2Proof.Machine.execSetAuthority ecdsa lms s
  | .setConfig ecdsa lms => Sys2Proof.Machine.execSetConfig ecdsa lms s
  | .sessionClose => Sys2Proof.Machine.execSessionClose s
  | .setCap => Sys2Proof.Machine.execSetCap s
  | .telemetryRead => Sys2Proof.Machine.execTelemetryRead s
  | .telemetryPush k => Sys2Proof.Machine.execTelemetryPush k s
  | .journalRead => Sys2Proof.Machine.execJournalRead s
  | .logRead => Sys2Proof.Machine.execLogRead s
  | .steerTable key => Sys2Proof.Machine.execSteerTable key s
  | .macsecKey key => Sys2Proof.Machine.execMacsecKey key s
  | .attest => Sys2Proof.Machine.execAttest s
  | .sessionLifetime src => Sys2Proof.Machine.execSessionLifetime src s
  | .counterLoRead conn b n => Sys2Proof.Machine.execCounterLoRead conn b n s
  | .counterClr conn b => Sys2Proof.Machine.execCounterClr conn b s
  | .bandwidthWindowEnd b => Sys2Proof.Machine.execBandwidthWindowEnd b s
  | .collectorSweep => Sys2Proof.Machine.execCollectorSweep s
  | .colDevClaim conn h => Sys2Proof.Machine.execColDevClaim conn h s
  | .tagWb c ready start fin wb => Sys2Proof.Machine.execTagWb c ready start fin wb s
  | .droopDeassert cl periods => Sys2Proof.Machine.execDroopDeassert cl periods s
  | .privetWatchdogReturn => Sys2Proof.Machine.execPrivetWatchdogReturn s
  | .privetWatchdogEscalation => Sys2Proof.Machine.execPrivetWatchdogEscalation s
  | .privetPowerDown => Sys2Proof.Machine.execPrivetPowerDown s
  | .barReversed b st decivolts => Sys2Proof.Machine.execBarReversed b st decivolts s
  | .barExcursion b decivolts => Sys2Proof.Machine.execBarExcursion b decivolts s
  | .resetNRelease => Sys2Proof.Machine.execResetNRelease s
  | .lockFail cl => Sys2Proof.Machine.execLockFail cl s
  | .debugConnectorAccess op => Sys2Proof.Machine.execDebugConnectorAccess op s

end Sys2Proof.Machine
end

