-- ==== Sys2Proof/Machine/Tick.lean ====
section
/-!
DEFINITION. One reference edge of the module's clock (R347), which passes when no command waits: the counts of local cycles and reference edges that time
alone moves. Every other effect of time is a command, which looks at the edges that have passed.
-/
namespace Sys2Proof.Machine

/-- A core that issues nothing while its step counts on: in DONE, or waiting in SYN.BAR (R104, R128, R131). -/
def waitsOn (k : Core) : Bool := k.mode == .done || (k.mode == .run && k.barWait.isSome)

/-- SEQ_CYC of such cores, and event 0x1B. -/
def tickCores (f : Nat) (s : State) : State :=
  s.cores.foldl (fun s e =>
    if waitsOn e.2 then
      coreEv e.1 0x1B (if e.2.barWait.isSome then f else 0) (putCore e.1 { e.2 with cyc := (e.2.cyc + f) % 2 ^ 48 } s)
    else s) s

/-- Cores whose program stands at a word that no command issues. -/
def tickIssue (s : State) : State := s.cores.foldl (fun s e => issueReserved e.1 s) s

/-- Cores that are not IDLE now: their idle time starts at this edge at the earliest (R437). -/
def tickIdle (s : State) : State :=
  { s with idleAt := s.cores.foldl (fun t e => if e.2.mode = .idle then t else tblPut 0 t e.1 s.now) s.idleAt }

/-- Edges that running clusters receive (R484), and those of the engine halves while they are powered. -/
def tickClusters (f : Nat) (s : State) : State :=
  let s : State := if getF s inpPage Inp.bulkEn = 1 then { s with engCyc := s.engCyc + f } else s
  (List.range 288).foldl (fun s cl =>
    if clkState s cl = 1 then { s with clus := tblPut {} s.clus cl { tblGet {} s.clus cl with edges := (tblGet {} s.clus cl).edges + f } } else s) s

/-- An engine has a descriptor in flight on queues [lo, hi) that a half serves. -/
def inFlight (s : State) (lo hi half : Nat) : Bool :=
  s.queues.any (fun e => decide (lo ≤ e.1 ∧ e.1 < hi) && halfOf s e.1 == half && e.2.flights.any (fun f => f.started))

/-- F3 of the engine banks and event 0x08 of the Network Engine; F3 of a paused port (R483, R485). -/
def tickBanks (f : Nat) (s : State) : State :=
  let one := fun (b : Nat) (on : Bool) (n : Nat) (s : State) => if on then bankFix b 3 n s else s
  let s := [0, 1].foldl (fun s h => one (feBank h) (inFlight s 0 32 h) f (one (teBank h) (inFlight s 32 96 h) f s)) s
  let s := one neBank (s.queues.any (fun e => decide (96 ≤ e.1 ∧ e.1 < 128) && e.2.flights.any (fun x => x.started))) f s
  let s := if s.jobs.isEmpty then s else bankEv neBank 0x08 f s
  [0, 1].foldl (fun s p => one (portBank p) ([2 * p, 2 * p + 1].any (fun i => (List.range 8).any (fun q => pausedNow s i q))) 1 s) s

/-- A free part of n. -/
def freePart (n : Nat) (s : State) : Nat × State :=
  let d := draw s
  (d.1 % (n + 1), d.2)

/-- A free part of f local cycles into fixed counter i of a core's bank, or into an event's counters. -/
def freeFix (c i f : Nat) (s : State) : State := let p := freePart f s; bankFix c i p.1 p.2
def freeEv (c code f : Nat) (s : State) : State := let p := freePart f s; bankEv c code p.1 p.2

/-- The counts of a core's local cycles that only timing gives (R122, R483, R485): issue slots withheld, stream holds, sub-arrays streaming, the drain path busy, bank
arbitration lost, and gather holds. Each takes a free part of the cycles that pass while its unit works. -/
def tickUnits (c f : Nat) (k : Core) (s : State) : State :=
  let streaming := k.ops.filter (fun o => o.stage == .streaming)
  let s := freeEv c 0x19 f (freeFix c 3 f s)
  let s := if streaming.isEmpty then s else freeEv c 0x07 f (freeFix c 2 f s)
  let s := if k.snaps.isEmpty then s else freeEv c 0x09 f s
  if streaming.all (fun o => o.rows.isEmpty) then s
  else
    let p := freePart f s
    bankEv c 0x15 p.1 (addF (vecPage c) Vec.gthHoldCyc p.1 p.2)

/-- Cores in RUN, DONE or FROZEN whose cluster is clocked count (R484). -/
def tickHolds (f : Nat) (s : State) : State :=
  s.cores.foldl (fun s e => if coreCounts s e.1 && clkState s (clusterOfCore s e.1) == 1 then tickUnits e.1 f e.2 s else s) s

/-- An edge on which requests of a channel wait, and one with its queue full, which only timing gives: either, both or neither (R483, R485). -/
def tickChans (s : State) : State :=
  s.chans.foldl (fun s e =>
    if mcState s e.1 = mcActive then
      let p := freePart 2 s
      bankEv (chanBank e.1) 0x07 (p.1 / 2) (bankFix (chanBank e.1) 3 (min 1 p.1) p.2)
    else s) s

/-- W of R378: edges in which a collective of a STEERED Hedge waits for a peer; point-to-point descriptors do not count. -/
def tickWaits (s : State) : State :=
  (steeredHedges s).foldl (fun s h =>
    if s.jobs.any (fun j => decide (j.op < 6) && commHedge s j.comm == h && !jobDone j) then { s with waited := tblPut 0 s.waited h (tblGet 0 s.waited h + 1) } else s) s

/-- One reference edge. -/
def tick (s : State) : State :=
  let f := stepCode s
  pumpAll (settleHalves (trimGrants (tickWaits (tickChans (tickHolds f (tickBanks f (recentre f (tickClusters f (tickIdle (tickCores f (tickIssue { s with now := s.now + 1 })))))))))))

end Sys2Proof.Machine
end

