-- ==== Sys2Proof/Safety.lean ====
section
/-!
DEFINITION. The terms in which the statements speak: good memory, what a command may leave changed, and when a core's next
instruction takes effect.
-/
namespace Sys2Proof.Machine

/-- The canonical form of memory: addresses strictly rising, and no entry equal to what an unlisted address reads as. -/
def Memory.wf (m : List Host.Cell) : Bool := tblWf memDflt m

/-! ## Frames -/

/-- Every register field whose key is outside `P` is as before. -/
def fldSame (P : Nat → Prop) (s t : State) : Prop := ∀ key, ¬ P key → tblFind key t.fld = tblFind key s.fld

/-- Keys of the fields whose registers lie in [lo, hi). -/
def inRange (lo hi key : Nat) : Prop := 32 * lo ≤ key ∧ key < 32 * hi

/-- Keys of a core's counter bank and tag buffer pages, which follow whatever the core does (R484, R498). -/
def counting (c key : Nat) : Prop := inRange (corePageCnt c) (tagPage c + 0x1000) key

/-- The second state differs from the first at most in what counts and tags core c's work. -/
def countsOnly (c : Nat) (s t : State) : Prop :=
  t = { s with banks := t.banks, tagged := t.tagged, fld := t.fld, evtDue := t.evtDue, freeCtr := t.freeCtr } ∧
  fldSame (counting c) s t ∧ (∀ b, b ≠ c → getBank t b = getBank s b) ∧ (∀ d, d ≠ c → tblFind d t.tagged = tblFind d s.tagged)

/-- Core c's record differs, the fields that P names, and what counts and tags its work; nothing else. -/
def coreChange (c : Nat) (P : Nat → Prop) (s t : State) : Prop :=
  t = { s with cores := t.cores, banks := t.banks, tagged := t.tagged, fld := t.fld, evtDue := t.evtDue, freeCtr := t.freeCtr } ∧
  fldSame (fun key => counting c key ∨ P key) s t ∧ (∀ d, d ≠ c → getCore t d = getCore s d) ∧
  (∀ b, b ≠ c → getBank t b = getBank s b) ∧ (∀ d, d ≠ c → tblFind d t.tagged = tblFind d s.tagged)

/-- As coreChange with no field named. -/
def coreOnly (c : Nat) (s t : State) : Prop := coreChange c (fun _ => False) s t

/-- As coreOnly, and memory takes the bytes `bs` from address a up; a write clears damage and makes none. -/
def coreStores (c a : Nat) (bs : List Byte) (s t : State) : Prop :=
  t = { s with mem := t.mem, damage := t.damage, cores := t.cores, banks := t.banks, tagged := t.tagged, fld := t.fld, evtDue := t.evtDue,
               freeCtr := t.freeCtr } ∧
  (∀ x, memByte t x = if a ≤ x ∧ x < a + bs.length then bs.getD (x - a) memDflt else memByte s x) ∧ (∀ e ∈ t.damage, e ∈ s.damage) ∧
  fldSame (counting c) s t ∧ (∀ d, d ≠ c → getCore t d = getCore s d) ∧
  (∀ b, b ≠ c → getBank t b = getBank s b) ∧ (∀ d, d ≠ c → tblFind d t.tagged = tblFind d s.tagged)

/-- As coreChange, and memory takes the bytes `bs` from address a up. -/
def coreWrites (c : Nat) (P : Nat → Prop) (a : Nat) (bs : List Byte) (s t : State) : Prop :=
  t = { s with mem := t.mem, damage := t.damage, cores := t.cores, banks := t.banks, tagged := t.tagged, fld := t.fld, evtDue := t.evtDue,
               freeCtr := t.freeCtr } ∧
  (∀ x, memByte t x = if a ≤ x ∧ x < a + bs.length then bs.getD (x - a) memDflt else memByte s x) ∧ (∀ e ∈ t.damage, e ∈ s.damage) ∧
  fldSame (fun key => counting c key ∨ P key) s t ∧ (∀ d, d ≠ c → getCore t d = getCore s d) ∧
  (∀ b, b ≠ c → getBank t b = getBank s b) ∧ (∀ d, d ≠ c → tblFind d t.tagged = tblFind d s.tagged)

/-- As coreWrites, the bytes that may change being those whose address W names, whatever they become. -/
def coreTouches (c : Nat) (P W : Nat → Prop) (s t : State) : Prop :=
  t = { s with mem := t.mem, damage := t.damage, cores := t.cores, banks := t.banks, tagged := t.tagged, fld := t.fld, evtDue := t.evtDue,
               freeCtr := t.freeCtr } ∧
  (∀ x, ¬ W x → memByte t x = memByte s x) ∧ (∀ e ∈ t.damage, e ∈ s.damage) ∧
  fldSame (fun key => counting c key ∨ P key) s t ∧ (∀ d, d ≠ c → getCore t d = getCore s d) ∧
  (∀ b, b ≠ c → getBank t b = getBank s b) ∧ (∀ d, d ≠ c → tblFind d t.tagged = tblFind d s.tagged)

/-- No field of the page at base other than those named, and no field of another page. -/
def onlyFields (base : Nat) (l : List (Field × Nat)) (key : Nat) : Prop := ∃ e ∈ l, key = fkey base e.1 e.2

/-! ## Issue -/

/-- The core issues its next instruction without waiting or fault of its fetch (R99 to R107, R134): it is in RUN and in no barrier, its pc is inside the
tile-program memory, no register it reads and no scalar register it writes (`rd`, 0 for none) is held by an asynchronous instruction, neither the
instruction's word nor the registers read are damaged, and every field the instruction does not use is zero. -/
def Ready (c : Nat) (used : List (Nat × Nat)) (reads : List Nat) (w : IWord) (s : State) (rd : Nat := 0) : Prop :=
  let k := getCore s c
  canIssue k = true ∧ k.pc < tpmEnd ∧ (∀ r ∈ rd :: reads, r = 0 ∨ r ∉ heldRegs k) ∧ tblGet 0 k.tpmBad (k.pc / 8) = 0 ∧
    (∀ r ∈ reads, tblGet 0 k.regBad r = 0) ∧ unusedZero w used = true

/-- The core goes to the next instruction (R109), at least one local cycle after the registers it read are final (R101). -/
def Steps (reads : List Nat) (k k' : Core) : Prop :=
  (k'.pc, k'.loops) = loopStep (k.pc + 8) k.loops ∧ (waitReads reads k).cyc < k'.cyc

/-- Only the sequencer's progress differs in the core's record. -/
def seqOnly (k k' : Core) : Prop := k' = { k with pc := k'.pc, loops := k'.loops, cyc := k'.cyc, hold := k'.hold }

/-- A write of register r (0 to 31 scalar, 32 to 63 vector), whole or not, has happened: written whole it holds no damage, and the damage of every other
register is as before (R100). -/
def mended (r : Nat) (whole : Prop) (k k' : Core) : Prop :=
  ∀ x, (x = r ∧ whole → tblGet 0 k'.regBad x = 0) ∧ (¬ (x = r ∧ whole) → tblGet 0 k'.regBad x = tblGet 0 k.regBad x)

/-- The scalar registers after a write of v to rd: register 0 takes nothing (R100), and every other register is as before. -/
def regsAfter (rd : Nat) (v : Word64) (k k' : Core) : Prop :=
  (∀ r, sreg k' r = if r = rd ∧ r ≠ 0 then v else sreg k r) ∧ mended rd (rd ≠ 0) k k'

/-- The record differs in nothing but scalar registers, their readiness and damage, the loads in flight and the sequencer's progress. -/
def scalarOnly (k k' : Core) : Prop :=
  k' = { k with sregs := k'.sregs, regBad := k'.regBad, ready := k'.ready, pc := k'.pc, loops := k'.loops, cyc := k'.cyc, hold := k'.hold, loads := k'.loads }

/-- The instruction writes v to scalar register rd and goes on. -/
def writesScalar (rd : Nat) (v : Word64) (reads : List Nat) (k k' : Core) : Prop :=
  Steps reads k k' ∧ regsAfter rd v k k' ∧ scalarOnly k k'

/-- The core goes on at another address, with the loops ended whose body the target leaves (R109) and two idle local cycles (R101). -/
def jumpsTo (target : Nat) (reads : List Nat) (k k' : Core) : Prop :=
  k'.pc = target ∧ k'.loops = loopLeave target k.loops ∧ k'.cyc = (waitReads reads k).cyc + 3

/-- The vector registers after an instruction on type f writes `codes` to lanes 0 up of vd: every other byte is as before (R110). -/
def lanesAfter (f : Fmt) (vd : Nat) (codes : List Nat) (k k' : Core) : Prop :=
  (∀ i, i < codes.length → lane k' f vd i = codes.getD i 0 % 2 ^ fmtWidth f) ∧
  (∀ b, b < 256 * vd ∨ 256 * vd + fmtBytes f * codes.length ≤ b → tblGet 0 k'.vregs b = tblGet 0 k.vregs b) ∧
  mended (32 + vd) (laneCount f ≤ codes.length) k k'

/-- The record of a core whose vector registers an instruction has written. -/
def vecOnly (k k' : Core) : Prop :=
  k' = { k with vregs := k'.vregs, regBad := k'.regBad, ready := k'.ready, pc := k'.pc, loops := k'.loops, cyc := k'.cyc, hold := k'.hold, loads := k'.loads }

/-- No word is damaged of which a write of n bytes from a covers a part (R143, R144). -/
def wholeWords (s : State) (a n : Nat) : Prop := ∀ e ∈ damageIn s a n, a ≤ e.1 ∧ e.1 + 8 ≤ a + n

/-- The key of VEC_FLAGS in its five fields' register (R136). -/
def isVecFlags (c key : Nat) : Prop := key = fkey (vecPage c) Vec.flags 0

/-- The flags are ORed into VEC_FLAGS (R115). -/
def flagsAfter (c fl : Nat) (s t : State) : Prop :=
  ∀ b, b < 5 → (getF t (vecPage c) Vec.flags).testBit b = ((getF s (vecPage c) Vec.flags).testBit b || fl.testBit b)

/-- A program fault (R107): the core is in FAULT with the cause, PROGRAM_FAULT is set, and the capture registers hold the instruction's
address and the cause. -/
def Faults (c pc cause : Nat) (t : State) : Prop :=
  (getCore t c).mode = .fault ∧ (getCore t c).cause = cause ∧ (getF t (seqPage c) Hdr.err).testBit Seq.eProgramFault = true ∧
    getF t (seqPage c) Hdr.errAddrLo = pc ∧ getF t (seqPage c) Hdr.errAddrHi = 0 ∧ getF t (seqPage c) Hdr.errInfo = cause

/-- The record differs in nothing but what the units of a core hold and the sequencer's progress. -/
def unitsOnly (k k' : Core) : Prop :=
  k' = { k with pc := k'.pc, loops := k'.loops, cyc := k'.cyc, hold := k'.hold, ops := k'.ops, slots := k'.slots, slotBad := k'.slotBad, snaps := k'.snaps,
                tileWait := k'.tileWait, setq := k'.setq, arm := k'.arm, strs := k'.strs, ponds := k'.ponds, puts := k'.puts, bars := k'.bars,
                barWait := k'.barWait }

/-- An instruction that is ready and does not issue holds for one local cycle (R133). -/
def Holds (c : Nat) (s t : State) : Prop :=
  coreOnly c s t ∧ getCore t c = { getCore s c with cyc := (getCore t c).cyc, hold := (getCore t c).hold } ∧
    (getCore s c).cyc < (getCore t c).cyc ∧ (getCore t c).cyc + (getCore s c).hold = (getCore s c).cyc + (getCore t c).hold

/-- Flits may cross from one routing site to another now: the links between them are there, none is held, and no skid buffer on the way is full (R166, R169, R352). -/
def linkOpen (s : State) (a b : Nat) : Prop :=
  ∃ path, linkPath s a b = some path ∧ ∀ e ∈ pathLinks a path, linkHeld s e = false ∧ (getSkid s e.2.1 e.2.2).occ ≠ 6

/-! ## Generators (R116 to R118) -/

/-- The first n elements of a generator's stream as numbers: in LFSR mode from its seed, in address mode from the scratchpad. -/
def genElems (c : Nat) (g : List Nat) (n : Nat) (s : State) : List Nat :=
  if gMode g = 1 then (chunks (gSize g) n (lfsrBytes g (n * gSize g))).map leNat
  else (List.range n).map (fun i => memNat s (spmBase c + (genAddr g i).toNat) (gSize g))

/-- None of the words that hold the elements [first, first + n) of a generator is damaged. -/
def genClean (c : Nat) (g : List Nat) (first n : Nat) (s : State) : Prop :=
  gMode g = 1 ∨ ∀ i, first ≤ i → i < first + n → damageIn s (spmBase c + (genAddr g i).toNat) (gSize g) = []

/-- The address of byte pos of a generator's stream. -/
def genByteAddr (c : Nat) (g : List Nat) (pos : Nat) : Nat := spmBase c + ((genAddr g (pos / gSize g)).toNat + pos % gSize g)

/-! ## Engines (R198 to R233) -/

/-- Descriptor f of queue q has ended as e says: it has left the flights, and its record is the last that waits to be written (R207, R212). -/
def Completed (q : Nat) (f : Flight) (e : Ending) (s t : State) : Prop :=
  (getQueue t q).flights = (getQueue s q).flights.filter (fun x => x.index != f.index) ∧
  ∃ c : Compl, (getQueue t q).compl = (getQueue s q).compl ++ [c] ∧ c.index = f.index ∧ c.tag = dTag f.desc ∧ c.opcode = dOp f.desc ∧
    c.status = e.status ∧ c.info = e.info ∧ c.detail = e.detail ∧ c.nflags = e.nflags ∧ c.attempts = e.attempts

/-- The plots of a Hedge lie in the grid of 8 by 4. -/
def inGrid (k : Hedge) : Prop := k.plot % 8 + k.width ≤ 8 ∧ k.plot / 8 + k.height ≤ 4

/-- Nothing stored is damaged, and no channel of Mere is FAILED. -/
def Sound (s : State) : Prop := s.damage = [] ∧ ∀ ch, mcState s ch ≠ mcFailed

/-- What an engine's move of data may change beside its queue: memory, the channels' records, counters and their flags, and what its packets wake or keep awake on
their way. -/
def movesOnly (s t : State) : Prop :=
  t = { s with mem := t.mem, queues := t.queues, chans := t.chans, banks := t.banks, fld := t.fld, evtDue := t.evtDue, clus := t.clus, wakeReqs := t.wakeReqs }

/-- The bytes of rows of n bytes, the r-th from `at' r`. -/
def inRows (at' : Nat → Nat) (n rows x : Nat) : Prop := ∃ r, r < rows ∧ at' r ≤ x ∧ x < at' r + n

/-! ## The Network Engine (R293 to R321) -/

/-- What sending packets may change: connections, the outbox, packet numbers of MACsec, counters and flags. -/
def netOnly (s t : State) : Prop :=
  t = { s with conns := t.conns, outbox := t.outbox, freeCtr := t.freeCtr, fld := t.fld, banks := t.banks, evtDue := t.evtDue,
               macKeys := t.macKeys, jbuf := t.jbuf, jover := t.jover }

/-- As netOnly, with the jobs. -/
def jobsOnly (s t : State) : Prop := netOnly { s with jobs := t.jobs } t

/-- The oldest started descriptor of a queue with an opcode that is not in progress yet. -/
def jobDue (s : State) (q op : Nat) : Option Flight :=
  (getQueue s q).flights.find? (fun f => f.started && dOp f.desc == op && !s.jobs.any (fun j => j.queue == q && j.index == f.index))

/-- A job that can go no further: its READYs are out, and a receive is incomplete behind sends that are all made. -/
def stalled (j : Job) : Prop :=
  j.op ≠ 5 ∧ (∀ r ∈ recvFrom j, r ∈ j.told) ∧
    ∃ i x, j.plan[i]? = some x ∧ isRecv x = true ∧ xDone j x = false ∧ ∀ y ∈ j.plan.take i, isRecv y = false → y.fin = true

/-- Job j stands as j' and every other job as before. -/
def jobBecomes (j j' : Job) (s t : State) : Prop := t.jobs = s.jobs.map (fun x => if sameJob x j then j' else x)

/-- The collective and point-to-point descriptors with their opcodes (R230). -/
def collOps : List ((QueueId → Bool → Instr) × Nat) :=
  [(fun q b => .allReduce ⟨q, b⟩, 1), (fun q b => .reduceScatter ⟨q, b⟩, 2), (fun q b => .allGather ⟨q, b⟩, 3), (fun q b => .broadcast ⟨q, b⟩, 4), (fun q b => .shuffle ⟨q, b⟩, 5),
   (fun q b => .send ⟨q, b⟩, 6), (fun q b => .recv ⟨q, b⟩, 7)]

/-- A message of a type with this MSG, status and body waits on connection k or is on its way, where the connection is OPEN. -/
def sends (k type msg status : Nat) (body : List Byte) (s t : State) : Prop :=
  (getConn s k).state = .opened → ∃ w : Wire, (w ∈ (getConn t k).txq ∨ ∃ x ∈ (getConn t k).unacked, x.wire = w) ∧
    w.type = type ∧ w.msg = msg ∧ w.status = status ∧ w.body = body

/-- The request is answered with a status and data (R282). -/
def answers (k : Nat) (w : Wire) (status : Nat) (data : List Byte) (s t : State) : Prop := sends k tCompletion w.msg status data s t

/-! ## Privet (R458 to R478) -/

/-- Request r is the one Privet serves next, and it asks for cmd; u is the state with it taken. -/
def Serves (cmd : Nat) (r : PReq) (s u : State) : Prop :=
  privetUp s = true ∧ nextReq s = some r ∧ rqCmd r.block = cmd ∧ u = { s with preqs := s.preqs.erase r, served := r.src }

/-- A SENSITIVE request passes the checks of R461; u is the state in which Privet acts. -/
def Sensitive (cmd : Nat) (r : PReq) (s u : State) : Prop :=
  ∃ v, Serves cmd r s v ∧ s.busy = none ∧ rqSerial r.block = s.fuses.serial ∧ rqCounter r.block = s.flash.sreq ∧
    u = { v with flash := { v.flash with sreq := v.flash.sreq + 1 } }

/-- A ROUTINE request passes the checks of R463 under session x, with its counter taken; u is the state in which Privet acts. -/
def Routine (cmd : Nat) (r : PReq) (x : Session) (s u : State) : Prop :=
  ∃ v y, Serves cmd r s v ∧ sessionOf s r.src = some y ∧ rqSession r.block = y.number ∧ hmac384 y.mac (rqSigned r.block) = rqAuth r.block ∧
    y.last < rqCounter r.block ∧ x = { y with last := rqCounter r.block } ∧ u = { v with sessions := tblInsert r.src x v.sessions }

/-! ## Power and clocks (R322 to R391) -/

/-- Force-minimum begins (R362, R371, R388): every ceiling is 4, or 1 in a thermal hold, no L is above its ceiling, the step controller is armed by itself
for step 10 with S = 32, and every generator that does not count records the step. -/
def Forced (s t : State) : Prop :=
  getF t pctPage Pct.forced = 1 ∧ t.pwr.arm = some ⟨10, 32, s.now, true⟩ ∧ getF t refPage Ref.armed = 1 ∧ getF t refPage Ref.forced = getF s refPage Ref.forced ∧
    ∀ cl, cl < 288 → (clkState s cl = 0 ∨ clkState s cl = 3 → getF t (clkPage cl) Clk.pendingStep = 10) ∧ getC t cl Cpc.ceil = (if getC s cl Cpc.hold = 1 then 1 else 4) ∧ getC t cl Cpc.issueL = min (getC s cl Cpc.issueL) (getC t cl Cpc.ceil)

/-- A cluster's Spring trips (R336, R337): it is DARK with its clock in PARK, its sites are holes or wait for their shift, the log takes it, and no other
cluster's Spring or clock changes. -/
def Trips (cl cause : Nat) (s t : State) : Prop :=
  sprState t cl = sprDark ∧ clkState t cl = 0 ∧ (getF t (sprPage cl) Hdr.err).testBit Spr.eTrip = true ∧
    (∀ p ∈ clusterSites cl, p ∈ t.holes ∨ ∃ e ∈ t.failed, e.1 = p) ∧ (∀ k, k < 288 → k ≠ cl → sprState t k = sprState s k ∧ clkState t k = clkState s k) ∧
    (s.dlog.length < 4096 → t.dlog = s.dlog ++ [⟨1, cause, 0xFF, cl, s.bootNo, s.powerOn⟩]) ∧ t.conns = s.conns ∧ t.chans = s.chans ∧ t.flash = s.flash

/-- A generator loses its lock, or misses a switch (R367): it PARKs and relocks, and a RUNNING Hedge of its plot sees an uncorrected error. -/
def LosesLock (cl bit : Nat) (s t : State) : Prop :=
  t = { s with fld := t.fld, evtDue := t.evtDue, clus := t.clus, jbuf := t.jbuf, jover := t.jover, ceAgg := t.ceAgg, ucs := t.ucs } ∧ clkState t cl = 0 ∧
    (getClus t cl).relock = true ∧ (getF t (clkPage cl) Hdr.err).testBit bit = true ∧ (∀ k, k < 288 → k ≠ cl → clkState t k = clkState s k) ∧
    match hedgeOfPlot s (plotOfCluster cl) with
    | some h => if (getHedge s h).state = .running then ∃ core, t.ucs = s.ucs ++ [⟨h, core, false⟩] else t.ucs = s.ucs
    | none => t.ucs = s.ucs

/-! ## Steering (R377 to R381, R466) -/

/-- A steering message of a kind is first on connection k, with a counter and an HMAC of a group's table: it is from member `from'` to the group's Hedge h, its body
is `b`, and u is the state with it taken. -/
def SteerMsg (k kind h from' : Nat) (b : List Byte) (s u : State) : Prop :=
  ∃ w rest t, (getConn s k).inbox = w :: rest ∧ s.pwr.away = none ∧ w.type = tMgmt ∧ bNat w.body 0 1 = mkSteer ∧ bNat w.body 32 1 = kind ∧
    from' = bNat w.body 34 1 ∧ getTab s (bNat w.body 33 1) = some t ∧ hmac384 t.key (w.body.take 64) = (w.body.drop 64).take 48 ∧
    tblGet 0 t.seen from' < bNat w.body 0x10 8 ∧ groupHedge s (bNat w.body 33 1) = some h ∧ b = w.body.drop 32 ∧
    u = putTab (bNat w.body 33 1) { t with seen := tblPut 0 t.seen from' (bNat w.body 0x10 8) } (putConn k { getConn s k with inbox := rest } s)

/-- The steering messages and their kinds (R381). -/
def steerRows : List ((ConnId → Instr) × Nat) :=
  [(.steerReport, kReport), (.steerGrant, kGrant), (.steerAccept, kAccept), (.steerRefuse, kRefuse), (.steerReturn, kReturn)]

/-! ## Bring-up (R397 to R413) -/

/-- Bring-up halts with a code (R401): BOOT_STAT shows HALTED, no core runs and no cluster is clocked. -/
def HaltsBoot (code : Nat) (t : State) : Prop :=
  getF t bupPage Bup.state = 3 ∧ getF t bupPage Bup.code = code ∧ (getF t bupPage Hdr.err).testBit Bup.eHalt = true ∧ getF t prvPage Prv.state = 2 ∧
    t.cores = [] ∧ ∀ cl, cl < 288 → clkState t cl = 0

/-- What a stage may change beside what it finds: registers, bring-up's own record and the journal. -/
def stageOnly (s t : State) : Prop :=
  t = { s with fld := t.fld, boot := t.boot, freeCtr := t.freeCtr, jbuf := t.jbuf, jover := t.jover, evtDue := t.evtDue }

/-! ## Resets, pages and rows of Privet -/

/-- A device reset with its cause (R443, R445): the die and Mere are as after power-on; flash, fuses, the log, the waiting commands and the registers R445 keeps
stay; what a firmware update left is dropped as R447 says, and Privet starts at S0. -/
def ResetDevice (cause : Nat) (s t : State) : Prop :=
  t.mem = [] ∧ t.damage = [] ∧ t.cores = [] ∧ t.hedges = [] ∧ t.queues = [] ∧ t.conns = [] ∧ t.jobs = [] ∧ t.sessions = [] ∧ t.evt = [] ∧ t.chans = [] ∧ t.holes = [] ∧
    t.boot.begun = false ∧ t.dlog = s.dlog ∧ t.fuses = s.fuses ∧ t.flash = { dropUpdate s with torn := false } ∧ t.powerOn = s.powerOn ∧ t.deadCells = s.deadCells ∧ t.now = s.now ∧
    t.resetEdge = s.now ∧ t.pending = s.pending ∧ t.pwr = { resetLow := s.pwr.resetLow, forceLow := s.pwr.forceLow } ∧ getF t errPage Err.rstCause = cause % 16 ∧
    getF t prvPage Prv.debug = (if getF s prvPage Prv.debugPending = 1 then 1 else getF s prvPage Prv.debug % 2) ∧ getF t pctPage Pct.cap = capNow t ∧
    ∀ a lo, keepsReg a = true → a ≠ errPage + 0x54 → lo < 32 → tblFind (a * 32 + lo) t.fld = tblFind (a * 32 + lo) s.fld

/-- A reset may come: Privet is powered, no thermal trip is latched, and the marks of bits to keep name pages. -/
def resettable (s : State) : Prop := s.pwr.privetOn = true ∧ s.pwr.thermTrip = false ∧ ∀ e ∈ s.fresh, e / 32 % 4096 = 0

/-- A connection may write the header of a page (R456, R457, R516). -/
def mayHead (s : State) (conn : Nat) (pg : Page) : Prop :=
  (pageLock s pg).1 = 0 ∧ match pageCore pg with
    | some c => mayWriteCore s conn c = true
    | none => match pg.ty with
      | .queue _ => ownsHedge s conn (queHedge s (pageQueue pg)) = true
      | .hedge => ownsHedge s conn pg.inst = true
      | .eventCounters => ownsHedge s conn (2 * pg.inst) = true ∨ ownsHedge s conn (2 * pg.inst + 1) = true
      | _ => True

/-- The SENSITIVE and the ROUTINE commands with their codes (R460). -/
def SensRow (imageOk flashOk : Bool) (f : Bool → Bool → Instr) (cmd : Nat) : Prop :=
  (f, cmd) ∈ [(Instr.sessionOpen, 0x10), (fun a b => .fwUpdate a b imageOk flashOk, 0x11), (.debugUnlock, 0x12), (.gradeRead, 0x13), (.deviceReset, 0x14),
    (.setAuthority, 0x15), (.setConfig, 0x16)]

def RoutineRow (key : Option (List Byte)) (i : Instr) (cmd : Nat) : Prop :=
  (i, cmd) ∈ [(Instr.sessionClose, 0x20), (.setCap, 0x21), (.telemetryRead, 0x22), (.journalRead, 0x23), (.logRead, 0x24), (.steerTable key, 0x25),
    (.macsecKey key, 0x26), (.attest, 0x27)]

/-! ## Tables of instructions of one shape -/

/-- Fields and registers an ALU instruction uses: MOD [0] replaces RB with the IMM (R108). -/
def aluUsed (w : IWord) : List (Nat × Nat) := if fMod w % 2 = 1 then [pRd, pRa, pMod, pImm] else [pRd, pRa, pRb, pMod]
def aluReads (w : IWord) : List Nat := if fMod w % 2 = 1 then [fRa w] else [fRa w, fRb w]

/-- The ALU instructions and what each computes (R108). -/
def aluOps : List ((CoreId → IWord → Instr) × (Word64 → Word64 → Word64)) :=
  [(.add, fun x y => x + y), (.sub, fun x y => x - y), (.and, fun x y => x &&& y), (.or, fun x y => x ||| y), (.xor, fun x y => x ^^^ y),
   (.shl, fun x y => x <<< (y.toNat % 64)), (.shr, fun x y => x >>> (y.toNat % 64)), (.sra, fun x y => x.sshiftRight (y.toNat % 64)),
   (.mul, fun x y => x * y), (.slt, fun x y => if x.slt y then 1 else 0), (.sltu, fun x y => if x.ult y then 1 else 0)]

/-- The branches and their conditions (R108). -/
def branchOps : List ((CoreId → IWord → Instr) × (Word64 → Word64 → Bool)) :=
  [(.beq, fun x y => x == y), (.bne, fun x y => x != y), (.blt, fun x y => x.slt y), (.bge, fun x y => !(x.slt y))]

/-- Lane-wise instructions of two sources, and what each gives from the codes of its lanes (R111, R112). -/
def vecOps2 : List ((CoreId → IWord → Instr) × (Fmt → Nat → Nat → Nat × Nat)) :=
  [(.vadd, fun f a b => opAdd f a b 0), (.vsub, fun f a b => opSub f a b 0), (.vmul, fun f a b => opMul f a b 0),
   (.vmin, fun f a b => opPick numLt f a b 0), (.vmax, fun f a b => opPick (fun x y => numLt y x) f a b 0),
   (.vand, fun _ a b => (a &&& b, 0)), (.vor, fun _ a b => (a ||| b, 0)), (.vxor, fun _ a b => (a ^^^ b, 0)),
   (.vshl, fun f a b => (a * 2 ^ (b % fmtWidth f) % 2 ^ fmtWidth f, 0)),
   (.vshra, fun f a b => (unsignedOf (fmtWidth f) (signedOf (fmtWidth f) a / 2 ^ (b % fmtWidth f)), 0)),
   (.vshrl, fun f a b => (a / 2 ^ (b % fmtWidth f), 0)),
   (.vcmpeq, fun f a b => (if numEq (laneVal f a) (laneVal f b) then 2 ^ fmtWidth f - 1 else 0, 0)),
   (.vcmplt, fun f a b => (if numLt (laneVal f a) (laneVal f b) then 2 ^ fmtWidth f - 1 else 0, 0))]

/-- Lane-wise instructions of three sources. -/
def vecOps3 : List ((CoreId → IWord → Instr) × (Fmt → Nat → Nat → Nat → Nat × Nat)) :=
  [(.vfma, opFma), (.vsel, fun _ a b m => (if m ≠ 0 then a else b, 0))]

/-- The transcendentals, each with the error its rule leaves drawn from a free value (R113). -/
def vecTransOps : List ((CoreId → IWord → Instr) × (Nat → Num → Nat × Nat)) :=
  [(.vexp2, exp2Code), (.vlog2, log2Code), (.vrsqrt, rsqrtCode)]

end Sys2Proof.Machine
end

