-- ==== Sys2Proof/WellFormed.lean ====
section
/-!
DEFINITION. Which commands are well formed: the bounds on operands that the constructors' types do not hold. A tile
instruction's row fixes CLASS and opcode, and for a set operation MOD too (R123); a frame fits R268; a Mere write stays in
one granule (R244); a key has the length its rule gives. The meanings answer for every command; no rule speaks of one that is not well
formed.
-/
namespace Sys2Proof

/-- The MOD field of an instruction word, bits [35:32] (R106). -/
def modOf (w : IWord) : Nat := w.toNat / 2 ^ 32 % 16

/-- A set instruction's MOD names its row's operation, 0 to 4, or none of the five, which is cause 0x21 (R107, R123). -/
def setMod (op : Nat) (w : IWord) : Bool := modOf w == op || decide (4 < modOf w)

/-- A write stays within one granule of 32 bytes and writes at least one (R244). -/
def mereReqOk : MereReq → Bool
  | .read _ => true
  | .write off bytes => decide (0 < bytes.length ∧ off.val + bytes.length ≤ 32)

/-- A UDP payload fits a frame of 9,216 bytes with its FCS behind Ethernet, IPv4 and UDP headers (R268). -/
def frameOk (f : Frame) : Bool := decide (f.bytes.length + 14 + 20 + 8 + 4 ≤ 9216)

/-- The debug connector reads or writes 1 to 256 bytes at a time, or one aligned register (R477). -/
def debugOk : DebugOp → Bool
  | .regRead a => decide (a.toNat % 4 = 0)
  | .regWrite a _ => decide (a.toNat % 4 = 0)
  | .memRead _ n => decide (0 < n.val)
  | .memWrite _ bytes => decide (0 < bytes.length ∧ bytes.length ≤ 256)

/-- A wave starts each cluster at most once, and a cluster's failing phases are named once each (R406). -/
def waveOk (res : List WaveResult) : Bool :=
  decide ((res.map (fun r => r.cl)).Nodup) && res.all (fun r => decide (r.phases.Nodup))

/-- A bar's state agrees with its voltage: LOW below 29.0 V, OVER above 42.0 V, REVERSED beyond 1.0 V the other way (R322). -/
def barOk (st : BarState) (decivolts : Nat) : Bool :=
  match st with
  | .low => decide (decivolts < 290)
  | .overvolt => decide (420 < decivolts)
  | .reversed => decide (10 < decivolts)
  | .opened => true

/-- The command's operands are within the bounds their rules give. -/
def wellFormed : Instr → Bool
  | .merge _ w => setMod 0 w
  | .intersect _ w => setMod 1 w
  | .union _ w => setMod 2 w
  | .diff _ w => setMod 3 w
  | .join _ w => setMod 4 w
  | .mereRequest _ rq _ => mereReqOk rq
  | .frameReceive _ f => frameOk f
  | .debugConnectorAccess op => debugOk op
  | .clusterWave res => waveOk res
  | .barLost _ st dv => barOk st dv.val
  | .barReversed _ st dv => barOk st dv.val
  | .stepSwitch missed => decide missed.Nodup
  | .bulkEnable fails _ => decide fails.Nodup
  | .weightRefit _ ws _ => decide (ws.length = 8)
  | .steerTable key => key.all (fun k => decide (1 ≤ k.length ∧ k.length ≤ 128))
  | .macsecKey key => key.all (fun k => decide (k.length = 32))
  | _ => true

end Sys2Proof
end

