-- ==== Sys2Proof/Certificates/Slice0/Obligations.lean ====
section
/-!
DEFINITION. The statements for the provers. Each statement about a command has as its conclusion that exec answers a next state, with what that state
holds and what it leaves as it was.
-/
open Sys2Proof Sys2Proof.Machine

/-! ## The block -/

/-- With a command at the front of the queue, a step is exec of it on the state with the queue's rest. -/
def Obligations.StepRunsFront : Prop :=
  ∀ (c : Instr) (rest : List Instr) (s : State), step { s with pending := c :: rest } = exec c { s with pending := rest }

/-! ## Tile programs: the sequencer (R99 to R109) -/

/-- Every ALU instruction writes its result, from RA and from RB or the sign-extended IMM, to RD (R108), register 0 taking nothing (R100). -/
def Obligations.AluResults : Prop :=
  ∀ e ∈ aluOps, ∀ (c : CoreId) (w : IWord) (s : State), fMod w ≤ 1 → Ready c (aluUsed w) (aluReads w) w s (fRd w) →
    ∃ t, exec (e.1 c w) s = .next t ∧ coreOnly c s t ∧
      writesScalar (fRd w)
        (e.2 (sreg (getCore s c) (fRa w)) (if fMod w = 1 then (BitVec.ofNat 32 (fImm w)).signExtend 64 else sreg (getCore s c) (fRb w)))
        (aluReads w) (getCore s c) (getCore t c)

/-- NOP, WAITC, LI, LIH, RDCYC and RDID (R108, R109, R131). -/
def Obligations.ScalarMoves : Prop :=
  ∀ (c : CoreId) (w : IWord) (s : State), let k := getCore s c;
    (Ready c [] [] w s → ∃ t, exec (.nop c w) s = .next t ∧ coreOnly c s t ∧ Steps [] k (getCore t c) ∧ seqOnly k (getCore t c)) ∧
    (Ready c [pRa, pImm] [fRa w] w s → ∃ t, exec (.waitc c w) s = .next t ∧ coreOnly c s t ∧ Steps [fRa w] k (getCore t c) ∧
      seqOnly k (getCore t c) ∧ (getCore t c).cyc = (waitReads [fRa w] k).cyc + max 1 ((sreg k (fRa w)).toNat + fImm w)) ∧
    (Ready c [pRd, pImm] [] w s (fRd w) → ∃ t, exec (.li c w) s = .next t ∧ coreOnly c s t ∧
      writesScalar (fRd w) ((BitVec.ofNat 32 (fImm w)).signExtend 64) [] k (getCore t c)) ∧
    (Ready c [pRd, pRa, pImm] [fRa w] w s (fRd w) → ∃ t, exec (.lih c w) s = .next t ∧ coreOnly c s t ∧
      writesScalar (fRd w) (BitVec.ofNat 64 (fImm w * 2 ^ 32 + (sreg k (fRa w)).toNat % 2 ^ 32)) [fRa w] k (getCore t c)) ∧
    (Ready c [pRd] [] w s (fRd w) → ∃ t, exec (.rdcyc c w) s = .next t ∧ coreOnly c s t ∧
      writesScalar (fRd w) (BitVec.ofNat 64 (k.cyc % 2 ^ 48)) [] k (getCore t c)) ∧
    (Ready c [pRd] [] w s (fRd w) → ∃ t, exec (.rdid c w) s = .next t ∧ coreOnly c s t ∧
      writesScalar (fRd w) (BitVec.ofNat 64 (rdidValue s c)) [] k (getCore t c))

/-- LD and LDW: the 8 or 4 bytes at an aligned address inside the scratchpad, undamaged, zero-extended, to RD, memory as before; ST and STW write the low 8 or 4 bytes of RB to an
aligned address inside the scratchpad, VST the active lanes of VA to one aligned to 64 bytes, and no other byte of memory changes; no damaged word is written in part
(R108, R111, R140). -/
def Obligations.LoadsAndStores : Prop :=
  (∀ (c : CoreId) (w : IWord) (s : State) (e : (CoreId → IWord → Instr) × Nat), e ∈ [((.ld, 8) : (CoreId → IWord → Instr) × Nat), (.ldw, 4)] →
     let k := getCore s c; let a := (sreg k (fRa w) + fImmS w).toNat;
     Ready c [pRd, pRa, pImm] [fRa w] w s (fRd w) → a % e.2 = 0 → a + e.2 ≤ spmSize → damageIn s (spmBase c + a) e.2 = [] →
     ∃ t, exec (e.1 c w) s = .next t ∧ coreOnly c s t ∧
       writesScalar (fRd w) (BitVec.ofNat 64 (memNat s (spmBase c + a) e.2)) [fRa w] k (getCore t c)) ∧
  (∀ (c : CoreId) (w : IWord) (s : State), let k := getCore s c;
     (∀ e ∈ [((.st, 8) : (CoreId → IWord → Instr) × Nat), (.stw, 4)], let a := (sreg k (fRa w) + fImmS w).toNat;
       Ready c [pRa, pRb, pImm] [fRa w, fRb w] w s → a % e.2 = 0 → a + e.2 ≤ spmSize → wholeWords s (spmBase c + a) e.2 →
       ∃ t, exec (e.1 c w) s = .next t ∧ coreStores c (spmBase c + a) (leBytes e.2 (sreg k (fRb w)).toNat) s t ∧
         Steps [fRa w, fRb w] k (getCore t c) ∧ seqOnly k (getCore t c)) ∧
     (∀ f, vecType (fMod w) = some f → let a := (sreg k (fRb w) + fImmS w).toNat; let n := fmtBytes f * active k f;
       Ready c [pRa, pRb, pMod, pImm] [32 + fRa w, fRb w] w s → a % 64 = 0 → a + n ≤ spmSize → wholeWords s (spmBase c + a) n →
       ∃ t, exec (.vst c w) s = .next t ∧
         coreStores c (spmBase c + a) ((List.range n).map (fun i => tblGet 0 k.vregs (256 * fRa w + i))) s t ∧
         Steps [32 + fRa w, fRb w] k (getCore t c) ∧ seqOnly k (getCore t c)))

/-- The branches go to PC + 8 × IMM when their condition holds, and to the next instruction otherwise; JAL writes PC + 8 to RD and jumps by 8 × IMM, JR jumps to RA, and LOOP
pushes a level of the next IMM instructions, or skips them when RA is 0 (R108, R109). -/
def Obligations.BranchesAndLoops : Prop :=
  (∀ e ∈ branchOps, ∀ (c : CoreId) (w : IWord) (s : State), let k := getCore s c;
     Ready c [pRa, pRb, pImm] [fRa w, fRb w] w s →
     (e.2 (sreg k (fRa w)) (sreg k (fRb w)) = true → ∀ target : Nat, (target : Int) = (k.pc : Int) + 8 * (fImmS w).toInt → goodTarget target = true →
       ∃ t, exec (e.1 c w) s = .next t ∧ coreOnly c s t ∧ jumpsTo target [fRa w, fRb w] k (getCore t c) ∧ seqOnly k (getCore t c)) ∧
     (e.2 (sreg k (fRa w)) (sreg k (fRb w)) = false →
       ∃ t, exec (e.1 c w) s = .next t ∧ coreOnly c s t ∧ Steps [fRa w, fRb w] k (getCore t c) ∧ seqOnly k (getCore t c))) ∧
  (∀ (c : CoreId) (w : IWord) (s : State), let k := getCore s c;
     (∀ target : Nat, (target : Int) = (k.pc : Int) + 8 * (fImmS w).toInt → goodTarget target = true → Ready c [pRd, pImm] [] w s (fRd w) →
       ∃ t, exec (.jal c w) s = .next t ∧ coreOnly c s t ∧ jumpsTo target [] k (getCore t c) ∧
         regsAfter (fRd w) (BitVec.ofNat 64 (k.pc + 8)) k (getCore t c) ∧ scalarOnly k (getCore t c)) ∧
     (goodTarget (sreg k (fRa w)).toNat = true → Ready c [pRa] [fRa w] w s →
       ∃ t, exec (.jr c w) s = .next t ∧ coreOnly c s t ∧ jumpsTo (sreg k (fRa w)).toNat [fRa w] k (getCore t c) ∧ seqOnly k (getCore t c)) ∧
     (Ready c [pRa, pImm] [fRa w] w s → k.loops.length < 4 → 1 ≤ fImm w → fImm w ≤ 4096 →
       (∀ l ∈ k.loops.head?, k.pc + 8 + 8 * fImm w ≤ l.stop) →
       ∃ t, exec (.loop c w) s = .next t ∧ coreOnly c s t ∧ seqOnly k (getCore t c) ∧
         (sreg k (fRa w) ≠ 0 → (getCore t c).pc = k.pc + 8 ∧
           (getCore t c).loops = ⟨k.pc + 8, k.pc + 8 + 8 * fImm w, (sreg k (fRa w)).toNat⟩ :: k.loops) ∧
         (sreg k (fRa w) = 0 → ((getCore t c).pc, (getCore t c).loops) = loopStep (k.pc + 8 + 8 * fImm w) k.loops)))

/-! ## Tile programs: the vector unit (R110 to R115) -/

/-- The lane-wise instructions write one code to each active lane, from the codes of the same lane of their sources, leave the other lanes, and OR their
flags into VEC_FLAGS. -/
def Obligations.VectorLanes : Prop :=
  ∀ (c : CoreId) (w : IWord) (s : State) (f : Fmt), let k := getCore s c;
    vecArith (fMod w) = some f →
    (∀ e ∈ vecOps2, Ready c [pRd, pRa, pRb, pMod] [32 + fRa w, 32 + fRb w] w s →
      let rs := (List.range (active k f)).map (fun i => e.2 f (lane k f (fRa w) i) (lane k f (fRb w) i));
      ∃ t, exec (e.1 c w) s = .next t ∧ coreChange c (isVecFlags c) s t ∧ Steps [32 + fRa w, 32 + fRb w] k (getCore t c) ∧
        vecOnly k (getCore t c) ∧ lanesAfter f (fRd w) (rs.map Prod.fst) k (getCore t c) ∧ flagsAfter c (flagsOf rs) s t) ∧
    (∀ e ∈ vecOps3, Ready c [pRd, pRa, pRb, pRc, pMod] [32 + fRa w, 32 + fRb w, 32 + fRc w] w s →
      let rs := (List.range (active k f)).map (fun i => e.2 f (lane k f (fRa w) i) (lane k f (fRb w) i) (lane k f (fRc w) i));
      ∃ t, exec (e.1 c w) s = .next t ∧ coreChange c (isVecFlags c) s t ∧ Steps [32 + fRa w, 32 + fRb w, 32 + fRc w] k (getCore t c) ∧
        vecOnly k (getCore t c) ∧ lanesAfter f (fRd w) (rs.map Prod.fst) k (getCore t c) ∧ flagsAfter c (flagsOf rs) s t)

/-- VCVT, VEXP2, VLOG2 and VRSQRT (R112, R113). A transcendental's lane takes a code that depends on a free value where the rule bounds its error and states
no value; the statement holds for every free value. -/
def Obligations.VectorConversions : Prop :=
  ∀ (c : CoreId) (w : IWord) (s : State), let k := getCore s c;
    (∀ f g, vecType (fMod w) = some f → vecType (wf w 0 4) = some g →
      wf w 4 2 < max (laneCount f) (laneCount g) / min (laneCount f) (laneCount g) →
      Ready c [pRd, pRa, pMod, (0, 4), (4, 2), (8, 1)] [32 + fRa w] w s →
      let moves := convMoves k.vl (laneCount f) (laneCount g) (wf w 4 2);
      let conv := fun i => convElem (wf w 8 1 == 1) f g (lane k f (fRa w) i);
      ∃ t, exec (.vcvt c w) s = .next t ∧ coreChange c (isVecFlags c) s t ∧ Steps [32 + fRa w] k (getCore t c) ∧ vecOnly k (getCore t c) ∧
        (∀ m ∈ moves, lane (getCore t c) g (fRd w) m.2 = (conv m.1).1 % 2 ^ fmtWidth g) ∧
        (∀ b, (∀ m ∈ moves, b < 256 * fRd w + fmtBytes g * m.2 ∨ 256 * fRd w + fmtBytes g * (m.2 + 1) ≤ b) →
          tblGet 0 (getCore t c).vregs b = tblGet 0 k.vregs b) ∧
        mended (32 + fRd w) (laneCount g ≤ moves.length) k (getCore t c) ∧ flagsAfter c (flagsOf (moves.map (fun m => conv m.1))) s t) ∧
    (∀ e ∈ vecTransOps, ∀ f, vecTrans (fMod w) = some f → Ready c [pRd, pRa, pMod] [32 + fRa w] w s →
      ∃ (free : Nat → Nat) (t : State),
        let rs := (List.range (active k f)).map (fun i => transLane f (e.2 (free i) (laneVal f (lane k f (fRa w) i))));
        exec (e.1 c w) s = .next t ∧ coreChange c (isVecFlags c) s t ∧ Steps [32 + fRa w] k (getCore t c) ∧ vecOnly k (getCore t c) ∧
        lanesAfter f (fRd w) (rs.map Prod.fst) k (getCore t c) ∧ flagsAfter c (flagsOf rs) s t)

/-- VRSUM, VRMAX and VRMIN over the active lanes in ascending order, with the value and the index an empty reduction gives, and exactly the flags each raises: EMPTY for
no active lane, NAN_OUT for a NaN result, and those of the sum's additions (R41, R58, R59, R114, R115). -/
def Obligations.VectorReductions : Prop :=
  ∀ (c : CoreId) (w : IWord) (s : State) (f : Fmt), let k := getCore s c; let n := active k f;
    let code := fun i => lane k f (fRa w) i; let xs := (List.range n).map code; let empty := if n = 0 then flagEmpty else 0;
    vecArith (fMod w) = some f →
    (Ready c [pRd, pRa, pMod] [32 + fRa w] w s (fRd w) →
      let exact := xs.foldl (fun a x => a + signedOf (fmtWidth f) x) 0; let sum := (xs.map (daOfFmt f)).foldl daAddF (0, 0);
      let nan := if numIsNan (daVal sum.1) then flagNanOut else 0;
      ∃ t, exec (.vrsum c w) s = .next t ∧ coreChange c (isVecFlags c) s t ∧
        writesScalar (fRd w) (if fmtIsInt f then BitVec.ofInt 64 exact else BitVec.ofNat 64 (daContainer sum.1)) [32 + fRa w] k (getCore t c) ∧
        flagsAfter c (if fmtIsInt f then empty else sum.2 ||| nan ||| empty) s t) ∧
    (∀ e ∈ [((.vrmax, true) : (CoreId → IWord → Instr) × Bool), (.vrmin, false)], Ready c [pRd, pRa, pRb, pMod] [32 + fRa w, fRb w] w s (fRd w) →
      let pick := if e.2 then maxPick else minPick;
      let best := (List.range n).foldl (fun b i => pick b (laneVal f (code i), code i, ((sreg k (fRb w)).toNat + i) % 2 ^ 32)) (.nan, emptyPick f e.2, 0xFFFFFFFF);
      let nan := n ≠ 0 ∧ numIsNan best.1 = true;
      ∃ t, exec (e.1 c w) s = .next t ∧ coreChange c (isVecFlags c) s t ∧
        writesScalar (fRd w) (BitVec.ofNat 64 ((if nan then (fspec f).nan else best.2.1) + best.2.2 * 2 ^ 32)) [32 + fRa w, fRb w] k (getCore t c) ∧
        (n = 0 → best.2.2 = 0xFFFFFFFF) ∧ flagsAfter c (empty ||| if nan then flagNanOut else 0) s t)

/-- VLD, VBCAST, VEXT and VSETVL (R111). -/
def Obligations.VectorMoves : Prop :=
  ∀ (c : CoreId) (w : IWord) (s : State), let k := getCore s c;
    (∀ f, vecType (fMod w) = some f → let a := (sreg k (fRa w) + fImmS w).toNat;
      Ready c [pRd, pRa, pMod, pImm] [fRa w] w s → a % 64 = 0 → a + 256 ≤ spmSize → damageIn s (spmBase c + a) 256 = [] →
      ∃ t, exec (.vld c w) s = .next t ∧ coreOnly c s t ∧ Steps [fRa w] k (getCore t c) ∧ vecOnly k (getCore t c) ∧
        mended (32 + fRd w) True k (getCore t c) ∧ (∀ b, tblGet 0 (getCore t c).vregs b =
          if 256 * fRd w ≤ b ∧ b < 256 * fRd w + 256 then memByte s (spmBase c + a + (b - 256 * fRd w)) else tblGet 0 k.vregs b)) ∧
    (∀ f, vecType (fMod w) = some f → Ready c [pRd, pRa, pMod] [fRa w] w s →
      ∃ t, exec (.vbcast c w) s = .next t ∧ coreOnly c s t ∧ Steps [fRa w] k (getCore t c) ∧ vecOnly k (getCore t c) ∧
        lanesAfter f (fRd w) (List.replicate (active k f) ((sreg k (fRa w)).toNat % 2 ^ fmtWidth f)) k (getCore t c)) ∧
    (∀ f, vecType (fMod w) = some f → fImm w < laneCount f → Ready c [pRd, pRa, pMod, pImm] [32 + fRa w] w s (fRd w) →
      ∃ t, exec (.vext c w) s = .next t ∧ coreOnly c s t ∧
        writesScalar (fRd w) (BitVec.ofNat 64 (lane k f (fRa w) (fImm w))) [32 + fRa w] k (getCore t c)) ∧
    (Ready c [pRa] [fRa w] w s →
      ∃ t, exec (.vsetvl c w) s = .next t ∧ coreOnly c s t ∧ Steps [fRa w] k (getCore t c) ∧
        (getCore t c).vl = min (sreg k (fRa w)).toNat 256 ∧ seqOnly { k with vl := (getCore t c).vl } (getCore t c))

/-! ## Tile programs: set, gather and stream units (R116 to R126) -/

/-- The pairs of input formats (R31), and what a DA48 container reads as: its bits [63:16], but for an infinity with non-zero low bits, which is the canonical NaN (R37). -/
def Obligations.InputFormats : Prop :=
  (∀ a b : Fmt, (fmtPair a b = true ↔ (a, b) ∈ [(.fp4, .fp4), (.bf16, .bf16), (.fp16, .fp16), (.fp32, .fp32), (.int8, .int8)] ∨ a ∈ [.e4m3, .e5m2] ∧ b ∈ [.e4m3, .e5m2]) ∧
    (fmtPair a b = true → (fmtIsInt a = true ↔ a = .int8 ∧ b = .int8))) ∧
  (∀ x : BitVec 64, let top := x.extractLsb' 16 48; daOfContainer x.toNat =
    if x.extractLsb' 52 11 = 0x7FF ∧ x.extractLsb' 16 36 = 0 ∧ x.extractLsb' 0 16 ≠ 0 then 0x7FF800000000 else top.toNat)

/-- A set instruction with suiting generators enters the set unit, which has room for two (R123). -/
def Obligations.SetIssue : Prop :=
  ∀ (c : CoreId) (w : IWord) (s : State) (e : (CoreId → IWord → Instr) × Nat),
    e ∈ [((.merge, 0) : (CoreId → IWord → Instr) × Nat), (.intersect, 1), (.union, 2), (.diff, 3), (.join, 4)] →
    let k := getCore s c; let ks := if (fImm w).testBit 17 then 3 else 2;
    let fields := if wf w 16 1 = 1 then [(0, 18)] else [(0, 12), (16, 2)];
    Ready c ([pRd, pRa, pRb, pRc, pMod] ++ fields) [fRa w, fRb w, fRc w] w s (fRd w) → fMod w = e.2 → k.setq.length < 2 →
    genSuits (captureGen s c (wf w 0 4)) false ks = true → genSuits (captureGen s c (wf w 4 4)) false ks = true →
    genSuits (captureGen s c (wf w 8 4)) true 3 = true →
    ((fImm w).testBit 16 = true → genSuits (captureGen s c (wf w 12 4)) true ks = true) →
    ∃ t, exec (e.1 c w) s = .next t ∧ coreOnly c s t ∧ Steps [fRa w, fRb w, fRc w] k (getCore t c) ∧ unitsOnly k (getCore t c) ∧
      getCore t c = { k with pc := (getCore t c).pc, loops := (getCore t c).loops, cyc := (getCore t c).cyc, hold := (getCore t c).hold,
                             setq := (getCore t c).setq } ∧
      (getCore t c).setq = k.setq ++ [{
        op := e.2, na := (sreg k (fRa w)).toNat % 2 ^ 32, nb := (sreg k (fRb w)).toNat % 2 ^ 32, cap := (sreg k (fRc w)).toNat, rd := fRd w,
        ga := captureGen s c (wf w 0 4), gb := captureGen s c (wf w 4 4), gp := captureGen s c (wf w 8 4), gk := captureGen s c (wf w 12 4),
        keysEn := (fImm w).testBit 16, key64 := (fImm w).testBit 17, pc := k.pc }]

/-- The end of the oldest set operation of a core in RUN (R124, R125). Over sorted, undamaged inputs RD takes the number of records, the first `cap` of them are in the pair
output and, with KEYS_EN, their keys in the key output, and the counts follow. A read of ill parity is an uncorrected error and nothing completes (R138); with no operation, or in a
core that does not run, nothing happens. -/
def Obligations.SetRunResult : Prop :=
  (∀ (c : CoreId) (s : State) (o : SetOp) (rest : List SetOp), let k := getCore s c; let ks := if o.key64 then 8 else 4; let p := vecPage c;
    k.mode = .run → k.setq = o :: rest → gSize o.ga = ks → gSize o.gb = ks → gSize o.gp = 8 → gMode o.gp = 0 →
    (o.keysEn = true → gSize o.gk = ks ∧ gMode o.gk = 0) → genClean c o.ga 0 o.na s → genClean c o.gb 0 o.nb s →
    let a := genElems c o.ga o.na s; let b := genElems c o.gb o.nb s;
    a.Pairwise (· ≤ ·) → b.Pairwise (· ≤ ·) →
    let recs := setRun o.op (a.length + b.length + 1) 0 0 a b; let m := min recs.length o.cap;
    genClean c o.gp 0 m s → (o.keysEn = true → genClean c o.gk 0 m s) →
    let pairAt := fun x => ∃ q, q < 8 * m ∧ x = genByteAddr c o.gp q; let keyAt := fun x => o.keysEn = true ∧ ∃ q, q < ks * m ∧ x = genByteAddr c o.gk q;
    ∃ t, exec (.setRunComplete c false) s = .next t ∧
      coreTouches c (onlyFields p [(Vec.setLastLo, 0), (Vec.setLastHi, 0), (Vec.setOps, 0), (Vec.setTrunc, 0)]) (fun x => pairAt x ∨ keyAt x) s t ∧
      getCore t c = { k with setq := rest, sregs := (getCore t c).sregs, regBad := (getCore t c).regBad, ready := (getCore t c).ready } ∧
      regsAfter o.rd (BitVec.ofNat 64 (min recs.length (2 ^ 64 - 1))) k (getCore t c) ∧
      getF t p Vec.setLastLo + 2 ^ 32 * getF t p Vec.setLastHi = recs.length % 2 ^ 64 ∧ getF t p Vec.setOps = (getF s p Vec.setOps + 1) % 2 ^ 32 ∧
      (o.cap < recs.length → getF t p Vec.setTrunc = (getF s p Vec.setTrunc + 1) % 2 ^ 32) ∧ (recs.length ≤ o.cap → getF t p Vec.setTrunc = getF s p Vec.setTrunc) ∧
      ((∀ x, pairAt x → ¬ keyAt x) →
        ((∀ i j, i < 8 * m → j < 8 * m → genByteAddr c o.gp i = genByteAddr c o.gp j → i = j) → ∀ i j, i < m → j < 8 →
          memByte t (genByteAddr c o.gp (8 * i + j)) = (leBytes 4 (recs.getD i (0, 0, 0)).1 ++ leBytes 4 (recs.getD i (0, 0, 0)).2.1).getD j 0) ∧
        (o.keysEn = true → (∀ i j, i < ks * m → j < ks * m → genByteAddr c o.gk i = genByteAddr c o.gk j → i = j) → ∀ i j, i < m → j < ks →
          memByte t (genByteAddr c o.gk (ks * i + j)) = (leBytes ks (recs.getD i (0, 0, 0)).2.2).getD j 0))) ∧
  (∀ (c : CoreId) (s : State), let k := getCore s c;
    (k.mode = .run → k.setq ≠ [] → ∃ t, exec (.setRunComplete c true) s = .next t ∧ t.cores = s.cores ∧ t.mem = s.mem ∧ t.damage = s.damage ∧
      (getF t (seqPage c) Hdr.err).testBit Seq.eUnitParity = true ∧
      (∀ h, hedgeOfCore s c = some h → (getHedge s h).state = .running → ∃ tpm, t.ucs = s.ucs ++ [⟨h, c, tpm⟩])) ∧
    (k.mode ≠ .run ∨ k.setq = [] → ∀ bad, exec (.setRunComplete c bad) s = .next s))

/-- INTERSECT, UNION and DIFF act on multisets (R124): a key that sorted A holds p times and sorted B holds q times appears min(p, q) times in an
intersection, max(p, q) times in a union and max(p − q, 0) times in a difference; MERGE keeps all p + q of them and JOIN pairs all p × q. -/
def Obligations.SetMultisets : Prop :=
  ∀ (a b : List Nat) (x fuel : Nat), a.Pairwise (· ≤ ·) → b.Pairwise (· ≤ ·) → a.length + b.length < fuel →
    let count := fun op => ((setRun op fuel 0 0 a b).filter (fun r => r.2.2 == x)).length; let p := a.count x; let q := b.count x;
    count 0 = p + q ∧ count 1 = min p q ∧ count 2 = max p q ∧ count 3 = p - q ∧ count 4 = p * q

/-- GTH.ARM, GTH.COPY and GTH.WAIT (R121): arming holds the list; a copy of n rows takes n indices and writes their rows packed, an index of 0xFFFF_FFFF giving
zeros; no damaged word is written in part. -/
def Obligations.Gathers : Prop :=
  ∀ (c : CoreId) (w : IWord) (s : State), let k := getCore s c;
    (genSuits (captureGen s c (wf w 0 4)) false 2 = true → Ready c [pRd, pRa, pRb, pRc, (0, 4)] [fRd w, fRa w, fRb w, fRc w] w s →
      ∃ t, exec (.gthArm c w) s = .next t ∧ coreOnly c s t ∧ Steps [fRd w, fRa w, fRb w, fRc w] k (getCore t c) ∧
        seqOnly { k with arm := (getCore t c).arm } (getCore t c) ∧
        (getCore t c).arm = some ⟨(sreg k (fRa w)).toNat, (sreg k (fRb w)).toNat, (sreg k (fRc w)).toNat, (sreg k (fRd w)).toNat,
          captureGen s c (wf w 0 4), 0⟩) ∧
    (∀ g n dst, k.arm = some g → n = (sreg k (fRb w)).toNat → dst = (sreg k (fRa w)).toNat → gSize g.gen = 4 → Ready c [pRa, pRb] [fRa w, fRb w] w s →
      (n ≠ 0 → dst + n * g.bytes ≤ spmSize) → (∀ l ∈ listLeft g, n ≤ l) → genClean c g.gen g.taken n s → wholeWords s (spmBase c + dst) (n * g.bytes) →
      let idx := (genElems c g.gen (g.taken + n) s).drop g.taken;
      (∀ x ∈ idx, x = 0xFFFFFFFF ∨ x < g.limit ∧ g.base + x * g.stride + g.bytes ≤ spmSize ∧
        damageIn s (spmBase c + (g.base + x * g.stride)) g.bytes = []) →
      ∃ t, exec (.gthCopy c w) s = .next t ∧
        coreWrites c (onlyFields (vecPage c) [(Vec.gthRows, 0), (Vec.gthHoldCyc, 0)]) (spmBase c + dst)
          (idx.flatMap (fun x => if x = 0xFFFFFFFF then List.replicate g.bytes 0 else memList s (spmBase c + (g.base + x * g.stride)) g.bytes)) s t ∧
        Steps [fRa w, fRb w] k (getCore t c) ∧ seqOnly { k with arm := (getCore t c).arm } (getCore t c) ∧
        (getCore t c).arm = some { g with taken := g.taken + n } ∧
        getF t (vecPage c) Vec.gthRows = (getF s (vecPage c) Vec.gthRows + n) % 2 ^ 32) ∧
    (Ready c [] [] w s → ∃ t, exec (.gthWait c w) s = .next t ∧ coreOnly c s t ∧ Steps [] k (getCore t c) ∧ seqOnly k (getCore t c))

/-- STR.LDG loads the eight words of a generator; SEND and RECV enter the stream unit where the image binds their channel, a RECV first taking the bytes that
wait; STR.WAIT goes on when no masked channel is active (R116, R119, R120). -/
def Obligations.Streams : Prop :=
  ∀ (c : CoreId) (w : IWord) (s : State), let k := getCore s c;
    (Ready c [pRd, pRa, pRb, pRc, (0, 4)] [fRd w, fRa w, fRb w, fRc w] w s →
      let g := wf w 0 4; let x := [sreg k (fRa w), sreg k (fRb w), sreg k (fRc w), sreg k (fRd w)].map BitVec.toNat;
      let word := fun i => bitsOf (x.getD (i / 2) 0) (32 * (i % 2)) 32; let p := vecPage c;
      ∃ t, exec (.strLdg c w) s = .next t ∧
        coreChange c (inRange (p + 0x100 + 32 * g) (p + 0x100 + 32 * (g + 1))) s t ∧ Steps [fRd w, fRa w, fRb w, fRc w] k (getCore t c) ∧
        seqOnly k (getCore t c) ∧
        captureGen t c g = [bitsOf (word 0) 0 22, bitsOf (word 0) 22 3, bitsOf (word 0) 25 2, bitsOf (word 0) 27 4, bitsOf (word 1) 0 16,
          bitsOf (word 1) 16 16, bitsOf (word 2) 0 16, bitsOf (word 3) 0 23, bitsOf (word 4) 0 23, bitsOf (word 5) 0 23, word 6 + 2 ^ 32 * word 7]) ∧
    (let g := captureGen s c (wf w 0 4); let ch := wf w 8 3; let total := (sreg k (fRa w)).toNat * gSize g;
      genOk g = true → k.strs.length < 8 → Ready c [pRa, (0, 4), (8, 3)] [fRa w] w s →
      (outBound s c ch = true →
        ∃ t, exec (.strSend c w) s = .next t ∧ coreOnly c s t ∧ Steps [fRa w] k (getCore t c) ∧ seqOnly { k with strs := (getCore t c).strs } (getCore t c) ∧
          (getCore t c).strs = if total = 0 then k.strs else k.strs ++ [⟨false, ch, g, total, 0⟩]) ∧
      (inBound s c ch = true → gMode g = 0 → k.strs.any (fun o => o.recv && o.chan == ch) = false →
        let old := tblGet [] s.rest (8 * c.val + ch); let n := if total = 0 then 0 else min old.length total;
        (∀ q, q < n → damageIn s (genByteAddr c g q) 1 = []) → ∃ t u, exec (.strRecv c w) s = .next t ∧ t = { u with rest := t.rest } ∧
          coreTouches c (fun _ => False) (fun x => ∃ q, q < n ∧ x = genByteAddr c g q) s u ∧
          (∀ key, tblGet [] t.rest key = if key = 8 * c.val + ch then old.drop n else tblGet [] s.rest key) ∧
          Steps [fRa w] k (getCore t c) ∧ seqOnly { k with strs := (getCore t c).strs } (getCore t c) ∧
          (getCore t c).strs = (if n = total then k.strs else k.strs ++ [⟨true, ch, g, total, n⟩]) ∧
          ((∀ p q, p < n → q < n → genByteAddr c g p = genByteAddr c g q → p = q) → ∀ q, q < n → memByte t (genByteAddr c g q) = old.getD q 0))) ∧
    (Ready c [(0, 16)] [] w s → k.strs.any (fun o => (wf w 0 16).testBit (if o.recv then 8 + o.chan else o.chan)) = false →
      ∃ t, exec (.strWait c w) s = .next t ∧ coreOnly c s t ∧ Steps [] k (getCore t c) ∧ seqOnly k (getCore t c))

/-- An instruction whose unit is busy holds: STR.WAIT on an active channel, PND.FENCE with a PUT unanswered, PND.WAITN below its count, SYN.FENCE and SYN.DONE
with work outstanding (R102, R119, R127, R128, R133). -/
def Obligations.UnitsHold : Prop :=
  ∀ (c : CoreId) (w : IWord) (s : State), let k := getCore s c;
    (Ready c [(0, 16)] [] w s → k.strs.any (fun o => (wf w 0 16).testBit (if o.recv then 8 + o.chan else o.chan)) = true →
      ∃ t, exec (.strWait c w) s = .next t ∧ Holds c s t) ∧
    (Ready c [pRd] [] w s (fRd w) → k.puts ≠ [] → ∃ t, exec (.pndFence c w) s = .next t ∧ Holds c s t) ∧
    (Ready c [pRa, (0, 4)] [fRa w] w s → pondState s c (wf w 0 4) = pondOpen → pondLanded s c (wf w 0 4) < (sreg k (fRa w)).toNat →
      ∃ t, exec (.pndWaitn c w) s = .next t ∧ Holds c s t) ∧
    (Ready c [] [] w s → writesDone k = false → ∃ t, exec (.synFence c w) s = .next t ∧ Holds c s t) ∧
    (Ready c [] [] w s → (k.ops ≠ [] ∨ k.snaps ≠ [] ∨ k.setq ≠ [] ∨ k.strs ≠ [] ∨ k.puts ≠ []) → ∃ t, exec (.synDone c w) s = .next t ∧ Holds c s t)

/-! ## Tile programs: Ponds, fences and barriers (R102, R127, R128, R148) -/

/-- The PND instructions (R127, R148). -/
def Obligations.PondInstructions : Prop :=
  ∀ (c : CoreId) (w : IWord) (s : State), let k := getCore s c; let p := wf w 0 4; let pg := spmPage c;
    (let base := (sreg k (fRa w)).toNat; let len := (sreg k (fRb w)).toNat; let rc := (sreg k (fRc w)).toNat;
      Ready c [pRa, pRb, pRc, (0, 4)] [fRa w, fRb w, fRc w] w s → pondState s c p ≠ pondOpen → pondState s c p ≠ pondClosing → windowOk base len = true →
      ∃ t, exec (.pndOpen c w) s = .next t ∧
        coreChange c (onlyFields pg [(Spm.base64, p), (Spm.len64, p), (Spm.srcHedge, p), (Spm.gen, p), (Spm.landed, p), (Spm.pondState, p)]) s t ∧
        Steps [fRa w, fRb w, fRc w] k (getCore t c) ∧ seqOnly { k with ponds := (getCore t c).ponds } (getCore t c) ∧
        64 * getF t pg Spm.base64 p = base ∧ 64 * getF t pg Spm.len64 p = len ∧ getF t pg Spm.srcHedge p = bitsOf rc 0 5 ∧
        getF t pg Spm.gen p = bitsOf rc 8 8 ∧ getF t pg Spm.landed p = 0 ∧ pondState t c p = pondOpen) ∧
    (Ready c [pRd, (0, 4)] [] w s (fRd w) → pondState s c p = pondOpen →
      ∃ t, exec (.pndClose c w) s = .next t ∧ coreChange c (onlyFields pg [(Spm.pondState, p)]) s t ∧ Steps [] k (getCore t c) ∧
        seqOnly { k with ponds := (getCore t c).ponds } (getCore t c) ∧ pondState t c p = pondClosing ∧
        (tblGet {} (getCore t c).ponds p).closeRd = some (fRd w)) ∧
    (let dest := (sreg k (fRa w)).toNat; let src := (sreg k (fRb w)).toNat % 2 ^ 22; let len := wf w 0 9;
      Ready c [pRa, pRb, (0, 9)] [fRa w, fRb w] w s → putCause dest src len = none → k.puts.length < 64 → damageIn s (spmBase c + src) len = [] →
      ∃ t u, exec (.pndPut c w) s = .next t ∧ t = { u with packets := t.packets, nextPkt := s.nextPkt + 1 } ∧ coreOnly c s u ∧
        Steps [fRa w, fRb w] k (getCore t c) ∧ seqOnly { k with puts := k.puts ++ [s.nextPkt] } (getCore t c) ∧
        ∃ pkt : Packet, t.packets = s.packets ++ [pkt] ∧ pkt.ident = s.nextPkt ∧ pkt.src = c ∧ pkt.dst = bitsOf dest 0 12 ∧ pkt.pond = bitsOf dest 12 4 ∧
          pkt.gen = bitsOf dest 16 8 ∧ pkt.off = bitsOf dest 24 22 ∧ pkt.bytes = memList s (spmBase c + src) len ∧ pkt.row = coreRow c ∧
          pkt.col = coreCol c ∧ pkt.phase = .moving none ∧ pkt.hedge = (hedgeOfCore s c).getD 0 ∧ pkt.answer = none) ∧
    (Ready c [pRd, (0, 4)] [] w s (fRd w) →
      ∃ t, exec (.pndCnt c w) s = .next t ∧ coreOnly c s t ∧ writesScalar (fRd w) (BitVec.ofNat 64 (pondLanded s c p)) [] k (getCore t c)) ∧
    (Ready c [pRa, (0, 4)] [fRa w] w s → pondState s c p = pondOpen → (sreg k (fRa w)).toNat ≤ pondLanded s c p →
      ∃ t, exec (.pndWaitn c w) s = .next t ∧ coreOnly c s t ∧ Steps [fRa w] k (getCore t c) ∧ seqOnly k (getCore t c)) ∧
    (Ready c [pRd] [] w s (fRd w) → k.puts = [] →
      ∃ t, exec (.pndFence c w) s = .next t ∧ coreOnly c s t ∧ (getCore t c).refusals = 0 ∧
        writesScalar (fRd w) (BitVec.ofNat 64 k.refusals) [] { k with refusals := 0 } (getCore t c))

/-- A packet at its destination that passes the checks of R149 lands in the Pond's window, whole, and is counted; one that fails is refused with the cause of
the first check that fails, is recorded, and writes nothing. Either way its answer goes back with the cause, 0 where it landed; at the sender it clears the PUT, counting a
refusal there. A destination in retention is woken first (R146, R149 to R152). -/
def Obligations.PondPackets : Prop :=
  ∀ (s : State) (i : Nat) (p : Packet), findPacket s i = some p → let c := p.dst; let pg := spmPage c;
    let answered := fun cause (t : State) => t.packets = s.packets.map (fun q => if q.ident = p.ident then { p with phase := .moving none, port := 4, answer := some cause } else q);
    (atCheck p = true → c < 4096 →
      (asleep s c = true → ∀ bad, exec (.pondWritePacket i bad) s = .next (wakeCluster (clusterOfCore s c) s)) ∧
      (∀ bad cause, asleep s c = false → pondCheck s p bad = some cause → ∃ t, exec (.pondWritePacket i bad) s = .next t ∧
        t = { s with packets := t.packets, fld := t.fld, banks := t.banks, evtDue := t.evtDue } ∧
        fldSame (fun key => counting c key ∨ inRange pg (pg + 0x1000) key) s t ∧ (∀ b, b ≠ c → getBank t b = getBank s b) ∧
        getF t pg Spm.dropCnt = (getF s pg Spm.dropCnt + 1) % 2 ^ 32 ∧
        getF t pg Spm.dropLast = (cause + p.pond * 2 ^ 8 + p.src * 2 ^ 12 + p.hedge * 2 ^ 24) % 2 ^ 32 ∧ answered cause t) ∧
      (asleep s c = false → pondCheck s p false = none → let a := spmBase c + (64 * getF s pg Spm.base64 p.pond + p.off);
        wholeWords s a p.bytes.length → ∃ t, exec (.pondWritePacket i false) s = .next t ∧
        t = { s with mem := t.mem, damage := t.damage, packets := t.packets, fld := t.fld, banks := t.banks, evtDue := t.evtDue, cores := t.cores,
                     evt := t.evt } ∧
        (∀ x, memByte t x = if a ≤ x ∧ x < a + p.bytes.length then p.bytes.getD (x - a) memDflt else memByte s x) ∧
        (∀ e ∈ t.damage, e ∈ s.damage) ∧ (∀ b, b ≠ c → getBank t b = getBank s b) ∧
        (∀ d, getCore t d = { getCore s d with ponds := (getCore t d).ponds }) ∧ (∀ d, d ≠ c → getCore t d = getCore s d) ∧
        getF t pg Spm.landed p.pond = min (getF s pg Spm.landed p.pond + p.bytes.length) (2 ^ 32 - 1) ∧ answered 0 t)) ∧
    (∀ cause, p.answer = some cause → p.phase = .moving none → p.row = coreRow p.src → p.col = coreCol p.src → p.src < 4096 →
      ∃ u, countsOnly p.src s u ∧ let k := getCore s p.src; let v := { u with packets := s.packets.filter (fun q => q.ident != i) };
        (i ∈ k.puts → cause = 0 → exec (.pondAck i) s = .next (putCore p.src { k with puts := k.puts.filter (· != i) } v)) ∧
        (i ∈ k.puts → 1 < cause → ∃ t, exec (.pondAck i) s = .next t ∧
          t = { v with cores := t.cores, fld := t.fld, banks := t.banks, evtDue := t.evtDue } ∧
          getCore t p.src = { k with puts := k.puts.filter (· != i), refusals := k.refusals + 1 } ∧ (∀ d, d ≠ p.src → getCore t d = getCore s d) ∧
          getF t (spmPage p.src) Spm.nakCnt = (getF s (spmPage p.src) Spm.nakCnt + 1) % 2 ^ 32) ∧
        (i ∉ k.puts → exec (.pondAck i) s = .next v))

/-- POND_CLOSED returns the final count to PND.CLOSE (R148); a PUT unanswered for 2^18 local cycles is lost and UC against its Hedge, and a
transfer some of whose packets its engine awaits so long is UC against its queue's (R186). -/
def Obligations.PondEnds : Prop :=
  (∀ (c : CoreId) (p : Fin 16) (s : State), let k := getCore s c; pondState s c p = pondClosing →
    ∃ t, exec (.pondClosed c p) s = .next t ∧ t = { s with cores := t.cores, fld := t.fld } ∧ pondState t c p = pondClosed ∧
      fldSame (onlyFields (spmPage c) [(Spm.pondState, p.val)]) s t ∧ (∀ d, d ≠ c → getCore t d = getCore s d) ∧
      (tblGet {} (getCore t c).ponds p.val).closeRd = none ∧
      getCore t c = { k with ponds := (getCore t c).ponds, sregs := (getCore t c).sregs, regBad := (getCore t c).regBad, ready := (getCore t c).ready } ∧
      (∀ rd, (tblGet {} k.ponds p.val).closeRd = some rd → regsAfter rd (BitVec.ofNat 64 (pondLanded s c p)) k (getCore t c)) ∧
      ((tblGet {} k.ponds p.val).closeRd = none → (getCore t c).sregs = k.sregs ∧ (getCore t c).regBad = k.regBad)) ∧
  (∀ (i : Nat) (p : Packet) (s : State) (h : Nat), let k := getCore s p.src;
    findPacket s i = some p → i ∈ k.puts → p.sent + 2 ^ 18 ≤ k.cyc → hedgeOfCore s p.src = some h → (getHedge s h).state = .running →
    ∃ t, exec (.lostPacket (.put i)) s = .next t ∧ t.packets = s.packets.filter (fun q => q.ident != i) ∧
      t = { s with packets := t.packets, cores := t.cores, fld := t.fld, jbuf := t.jbuf, jover := t.jover, evtDue := t.evtDue, freeCtr := t.freeCtr,
                   ucs := s.ucs ++ [⟨h, p.src, false⟩] } ∧
      getCore t p.src = { k with puts := k.puts.filter (· != i) } ∧ (∀ d, d ≠ p.src → getCore t d = getCore s d)) ∧
  (∀ (q : QueueId) (s : State) (start : Nat) (cores : List Nat), engineSends s q = some (start, cores) → start + 2 ^ 18 ≤ s.engCyc →
    (getHedge s (queHedge s q)).state = .running → ∃ t, ∃ core ∈ cores, exec (.lostPacket (.engine q)) s = .next t ∧
      t = { s with fld := t.fld, jbuf := t.jbuf, jover := t.jover, evtDue := t.evtDue, freeCtr := t.freeCtr, ucs := s.ucs ++ [⟨queHedge s q, core, false⟩] })

/-- SYN.FENCE, SYN.BAR and SYN.DONE, and the barrier's token: it frees a core once every core in service of its Hedge has issued the barrier as many times
(R102, R128). -/
def Obligations.Synchronisation : Prop :=
  (∀ (c : CoreId) (w : IWord) (s : State), let k := getCore s c;
    (Ready c [] [] w s → writesDone k = true →
      ∃ t, exec (.synFence c w) s = .next t ∧ coreOnly c s t ∧ Steps [] k (getCore t c) ∧ seqOnly k (getCore t c)) ∧
    (Ready c [(0, 2)] [] w s →
      ∃ t, exec (.synBar c w) s = .next t ∧ coreOnly c s t ∧ Steps [] k (getCore t c) ∧ (getCore t c).barWait = some (wf w 0 2) ∧
        (∀ b, tblGet 0 (getCore t c).bars b = tblGet 0 k.bars b + if b = wf w 0 2 then 1 else 0) ∧
        seqOnly { k with bars := (getCore t c).bars, barWait := some (wf w 0 2) } (getCore t c)) ∧
    (Ready c [] [] w s → k.ops = [] → k.snaps = [] → k.setq = [] → k.strs = [] → k.puts = [] →
      ∃ t, exec (.synDone c w) s = .next t ∧ coreOnly c s t ∧ Steps [] k (getCore t c) ∧ seqOnly { k with mode := .done } (getCore t c))) ∧
  (∀ (c : CoreId) (b : Fin 4) (s : State) (h : Nat), let k := getCore s c; let n := tblGet 0 k.bars b.val;
    hedgeOfCore s c = some h → k.mode = .run → k.barWait = some b.val →
    ((∀ x ∈ hedgeCores (getHedge s h), (siteOf s x).isSome = true → n ≤ tblGet 0 (getCore s x).bars b.val) →
      exec (.barrierToken c b) s = .next (putCore c { k with barWait := none } s)) ∧
    ((∃ x ∈ hedgeCores (getHedge s h), (siteOf s x).isSome = true ∧ tblGet 0 (getCore s x).bars b.val < n) → exec (.barrierToken c b) s = .next s))

/-! ## Tile programs: the matrix arrays (R62 to R88) -/

/-- ARR.MMA that passes the issue checks of R88 joins the queue, with rows of the gather list where its A operand names it; with no active row or
column it counts in ARR_NULL_OPS alone (R64, R76, R86, R121). -/
def Obligations.ArrayMultiplyIssue : Prop :=
  ∀ (c : CoreId) (w : IWord) (s : State), let k := getCore s c; let o := captureMma s c k w;
    Ready c [(0, 56)] [aKreg w, aDimReg w] w s → mmaCause k o (wf w 0 8 == 0) = none → queueDepth k < 8 →
    (o.m = 0 ∨ o.n = 0 → ∃ t, exec (.arrMma c w) s = .next t ∧
      coreChange c (fun key => key = fkey (arrPage c) Arr.nullOps 0 ∨ key = fkey (vecPage c) Vec.gthRows 0) s t ∧ Steps [aKreg w, aDimReg w] k (getCore t c) ∧
      seqOnly k (getCore t c) ∧ getF t (arrPage c) Arr.nullOps = (getF s (arrPage c) Arr.nullOps + 1) % 2 ^ 32) ∧
    (o.m ≠ 0 → o.n ≠ 0 → dSrc o.adesc ≠ 1 → ∃ t, exec (.arrMma c w) s = .next t ∧ coreOnly c s t ∧ Steps [aKreg w, aDimReg w] k (getCore t c) ∧
      (getCore t c).ops = k.ops ++ [o] ∧ seqOnly { k with ops := (getCore t c).ops } (getCore t c)) ∧
    (∀ g f, o.m ≠ 0 → o.n ≠ 0 → dSrc o.adesc = 1 → k.arm = some g → fmtOf o.afmt = some f → gSize g.gen = 4 → o.k * fmtBytes f ≤ g.bytes →
      (∀ l ∈ listLeft g, o.m ≤ l) → genClean c g.gen g.taken o.m s →
      let idx := (genElems c g.gen (g.taken + o.m) s).drop g.taken;
      (∀ x ∈ idx, x = 0xFFFFFFFF ∨ x < g.limit ∧ g.base + x * g.stride + g.bytes ≤ spmSize) →
      ∃ t, exec (.arrMma c w) s = .next t ∧ coreChange c (onlyFields (vecPage c) [(Vec.gthRows, 0)]) s t ∧
        Steps [aKreg w, aDimReg w] k (getCore t c) ∧ seqOnly { k with ops := (getCore t c).ops, arm := (getCore t c).arm } (getCore t c) ∧
        (getCore t c).ops = k.ops ++ [{ o with rows := idx.map (fun x => if x = 0xFFFFFFFF then spmSize else g.base + x * g.stride) }] ∧
        (getCore t c).arm = some { g with taken := g.taken + o.m })

/-- ARR.DRAIN takes a snapshot of the tile, ARR.CLR sets its active cells and the checksum cells of their rows to zero under the given tag, which clears the damage of a slot written whole, ARR.WAIT goes on
when its slots are released and their drains written, and ARR.LDD loads a descriptor (R70, R82, R87). A DRAIN or CLR of a busy slot waits and is counted (R71). -/
def Obligations.ArrayTileInstructions : Prop :=
  ∀ (c : CoreId) (w : IWord) (s : State), let k := getCore s c; let shape := aShape w; let mem := shapeMembers shape (aSub w);
    let slots := mem.map (fun q => 4 * q + aSlot w); let dim := (sreg k (aDimReg w)).toNat; let m := dim % 2 ^ 16; let n := dim / 2 ^ 16 % 2 ^ 16;
    (Ready c [(0, 56)] [aDimReg w] w s → drainCause s c k w = none → slots.any (slotBusy k) = false → (∀ i ∈ slots, tblGet 0 k.slotBad i = 0) →
      ∃ t, exec (.arrDrain c w) s = .next t ∧ coreOnly c s t ∧ Steps [aDimReg w] k (getCore t c) ∧
        seqOnly { k with tileWait := false, snaps := k.snaps ++ [drainSnap s c k w] } (getCore t c)) ∧
    (Ready c [(0, 56)] [aDimReg w] w s → clrCause k w = none → slots.any (slotBusy k) = false →
      ∃ t, exec (.arrClr c w) s = .next t ∧ coreOnly c s t ∧ Steps [aDimReg w] k (getCore t c) ∧
        seqOnly { k with tileWait := false, slots := (getCore t c).slots, slotBad := (getCore t c).slotBad } (getCore t c) ∧
        (∀ i, tblGet 0 (getCore t c).slotBad i = if i ∈ slots ∧ ((tblGet {} k.slots i).tag ≠ (if aAcc w then SlotTag.int else .float) ∨
          coversSlot shape (aSub w) (i / 4) m n = true) then 0 else tblGet 0 k.slotBad i) ∧
        (∀ i, i ∉ slots → tblGet {} (getCore t c).slots i = tblGet {} k.slots i) ∧
        ∀ q ∈ mem, let tag := if aAcc w then SlotTag.int else .float; let old := tblGet {} k.slots (4 * q + aSlot w);
          let new := tblGet {} (getCore t c).slots (4 * q + aSlot w);
          new.tag = tag ∧
          ∀ key, let hit := ∃ i j, i < m ∧ j < n ∧ (cellOf shape (aSub w) i j).1 = q ∧
                (key = 9 * (cellOf shape (aSub w) i j).2.1 + (cellOf shape (aSub w) i j).2.2 ∨ key = 9 * (cellOf shape (aSub w) i j).2.1 + 8);
            (hit → tblGet 0 new.cells key = 0) ∧ (¬ hit → tblGet 0 new.cells key = if old.tag = tag then tblGet 0 old.cells key else 0)) ∧
    (∀ e ∈ [((.arrDrain, drainCause s c k w) : (CoreId → IWord → Instr) × Option Nat), (.arrClr, clrCause k w)],
      Ready c [(0, 56)] [aDimReg w] w s → e.2 = none → slots.any (slotBusy k) = true → ∃ t, exec (e.1 c w) s = .next t ∧
        (getCore t c).hold = k.hold + 1 ∧ (getCore t c).pc = k.pc ∧
        getF t (arrPage c) Arr.tileStallCyc = (getF s (arrPage c) Arr.tileStallCyc + 1) % 2 ^ 32 ∧
        (k.tileWait = false → getF t (arrPage c) Arr.tileStalls = (getF s (arrPage c) Arr.tileStalls + 1) % 2 ^ 32)) ∧
    (Ready c [(0, 56)] [] w s → unusedZero w [(0, 17)] = true →
      (∀ i, i < 16 → (wf w 0 16).testBit i = true → slotBusy k i = false ∧ ∀ d ∈ k.snaps, i ∉ d.slots) →
      (wf w 16 1 = 1 → k.ops = [] ∧ k.snaps = []) →
      ∃ t, exec (.arrWait c w) s = .next t ∧ coreOnly c s t ∧ Steps [] k (getCore t c) ∧ seqOnly k (getCore t c)) ∧
    (Ready c [(0, 56)] [aKreg w, aDimReg w] w s → unusedZero w [(40, 4), (13, 5), (8, 5)] = true →
      let d := aAdesc w; let lo := (sreg k (aKreg w)).toNat; let p := arrPage c;
      ∃ t, exec (.arrLdd c w) s = .next t ∧ coreChange c (inRange (p + 0x100 + 16 * d) (p + 0x100 + 16 * (d + 1))) s t ∧
        Steps [aKreg w, aDimReg w] k (getCore t c) ∧ seqOnly k (getCore t c) ∧
        captureDesc t c d = ([bitsOf lo 0 22, bitsOf lo 22 2, bitsOf lo 28 2, bitsOf lo 32 22, bitsOf dim 0 22, bitsOf dim 32 22], bitsOf lo 24 4))

/-- A queued operation starts streaming once its members and slots are free, taking its operands; one of K = 0 streams nothing
(R76); a tile that an earlier operation holds counts one event, whether the operation waits or is chained, and a wait counts its cycles (R64, R67, R71). The ramp moves one
eighth a step, up while an operation streams and down when none streams and none is queued (R74). -/
def Obligations.ArrayStreaming : Prop :=
  ∀ (c : CoreId) (s : State), let k := getCore s c;
    (∀ (i : Fin 8) (o : ArrOp), k.ops[i.val]? = some o → o.stage = .queued → k.mode = .run → membersFree k i o = true →
      let conflict := o.stalled = false ∧ (k.ops.take i).any (fun p => meets (opSlots p) (opSlots o)) = true;
      let counts := fun t : State => (conflict → getF t (arrPage c) Arr.tileStalls = (getF s (arrPage c) Arr.tileStalls + 1) % 2 ^ 32) ∧
        (¬ conflict → getF t (arrPage c) Arr.tileStalls = getF s (arrPage c) Arr.tileStalls);
      (slotsFree k i o = true → (∀ r ∈ readRanges o, damageIn s (spmBase c + r.1) r.2 = []) →
        ∃ t, exec (.arrStreamStart c i false) s = .next t ∧ t = { s with cores := t.cores, fld := t.fld } ∧ (∀ d, d ≠ c.val → getCore t d = getCore s d) ∧
          getCore t c = { k with ops := (getCore t c).ops } ∧ (getCore t c).ops[i.val]? = some (captureOperands s c o) ∧
          (∀ j, j ≠ i.val → (getCore t c).ops[j]? = ((endStreams i o k).ops)[j]?) ∧ counts t ∧ fldSame (onlyFields (arrPage c) [(Arr.tileStalls, 0)]) s t) ∧
      (slotsFree k i o = false →
        ∃ t, exec (.arrStreamStart c i false) s = .next t ∧ t = { s with cores := t.cores, fld := t.fld, banks := t.banks, evtDue := t.evtDue } ∧ (∀ d, d ≠ c.val → getCore t d = getCore s d) ∧
          getCore t c = { k with ops := k.ops.set i { o with stalled := true } } ∧
          getF t (arrPage c) Arr.tileStallCyc = (getF s (arrPage c) Arr.tileStallCyc + 1) % 2 ^ 32 ∧ counts t ∧
          fldSame (fun key => counting c key ∨ onlyFields (arrPage c) [(Arr.tileStallCyc, 0), (Arr.tileStalls, 0)] key) s t)) ∧
    (let streams := k.ops.any (fun o => o.stage == .streaming); let queued := k.ops.any (fun o => o.stage == .queued);
      ∃ t, exec (.arrayRampStep c) s = .next t ∧ t = { s with cores := t.cores } ∧ (∀ d, d ≠ c.val → getCore t d = getCore s d) ∧
        getCore t c = { k with ramp := if streams then min 8 (k.ramp + 1) else if queued then k.ramp else k.ramp - 1 })

/-- When the folding of an operation completes, every active cell of its result members holds its result under the operation's tag, its other slots read +0, a slot
written whole holds no damage, and its flags are raised (R63, R69, R70, R72, R92). -/
def Obligations.ArrayFolding : Prop :=
  ∀ (c : CoreId) (i : Fin 8) (s : State) (o : ArrOp), let k := getCore s c; let res := foldResults k o; let members := shapeMembers o.shape o.sub;
    k.ops[i.val]? = some o → (o.stage = .streaming ∨ o.stage = .streamed) → (k.ops.take i).all (fun p => !meets (opSlots p) (opSlots o)) = true →
    (o.acc = true → ∀ j ∈ opSlots o, tblGet 0 k.slotBad j = 0) → shapeLegal o.shape o.ksplit = true → subLegal o.shape o.ksplit o.sub = true →
    o.m ≤ (shapeDim o.shape).1 → o.n ≤ (shapeDim o.shape).2 → o.slot < 4 → (o.pt = true → o.slot % 2 = 0) →
    ∃ t, exec (.arrFoldComplete c i) s = .next t ∧ coreChange c (onlyFields (arrPage c) [(Arr.flags, 0)]) s t ∧
      getCore t c = { k with ops := (getCore t c).ops, slots := (getCore t c).slots, slotBad := (getCore t c).slotBad } ∧
      (∀ j, tblGet 0 (getCore t c).slotBad j = if j ∈ opSlots o ∧ (¬ (j / 4 ∈ members ∧ j % 4 = o.slot) ∨ coversSlot o.shape o.sub (j / 4) o.m o.n = true) then 0
        else tblGet 0 k.slotBad j) ∧
      (∃ xs ys skips, (getCore t c).ops = k.ops.set i { o with stage := .folded, xs := xs, ys := ys, skips := skips }) ∧
      (∀ r ∈ res, let p := cellOf o.shape o.sub r.1 r.2.1;
        tblGet 0 (tblGet {} (getCore t c).slots (4 * p.1 + o.slot)).cells (9 * p.2.1 + p.2.2) = r.2.2.1) ∧
      (∀ q ∈ members, (tblGet {} (getCore t c).slots (4 * q + o.slot)).tag = if opInt o then .int else .float) ∧
      (∀ j ∈ opSlots o, ¬ (j / 4 ∈ members ∧ j % 4 = o.slot) → tblGet {} (getCore t c).slots j = {}) ∧
      (∀ j, j ∉ opSlots o → tblGet {} (getCore t c).slots j = tblGet {} k.slots j) ∧
      (∀ b, b < 5 → (getF t (arrPage c) Arr.flags).testBit b =
        ((getF s (arrPage c) Arr.flags).testBit b || (res.foldl (fun (a : Nat) r => a ||| r.2.2.2) 0).testBit b))

/-- The checksum comparison releases the slots, counts the rows it skips and takes a draining operation's snapshot; a row that fails sets CSUM_MISMATCH (R72, R79 to
R81). -/
def Obligations.ArrayChecksums : Prop :=
  ∀ (c : CoreId) (i : Fin 8) (s : State) (o : ArrOp) (bad : Option CellFault), (getCore s c).ops[i.val]? = some o → o.stage = .folded →
    (∀ q ∈ shapeMembers o.shape o.sub, tblGet 0 (getCore s c).slotBad (4 * q + o.slot) = 0) →
    let k0 := getCore s c;
    let k := match bad with
      | none => k0
      | some b =>
        let key := 4 * b.sub.val + o.slot; let sl := tblGet {} k0.slots key;
        let v : Int := if sl.tag = .int then b.code.toInt else b.code.toNat;
        { k0 with slots := tblPut {} k0.slots key { sl with cells := tblPut 0 sl.cells (9 * b.row.val + b.col.val) v } };
    let rows := (checkRows o).map (fun r => checkRow k o r);
    let after := { k with ops := k.ops.eraseIdx i, snaps := if o.drain then k.snaps ++ [⟨o.ofmt, o.sat, o.stat, o.statRow, (shapeDim o.shape).1, o.odesc,
        (shapeMembers o.shape o.sub).map (fun q => 4 * q + o.slot), tileCells k o.shape o.sub o.slot o.m o.n,
        rows.any (· == .fail)⟩] else k.snaps };
    (.fail ∉ rows → ∃ t, exec (.arrChecksumCompare c i bad) s = .next t ∧ coreChange c (onlyFields (arrPage c) [(Arr.csumSkip, 0)]) s t ∧
      getCore t c = after ∧ getF t (arrPage c) Arr.csumSkip = (getF s (arrPage c) Arr.csumSkip + (rows.filter (· == .skip)).length) % 2 ^ 32) ∧
    (.fail ∈ rows → ∃ t, exec (.arrChecksumCompare c i bad) s = .next t ∧ getCore t c = after ∧
      (getF t (arrPage c) Hdr.err).testBit Arr.eCsumMismatch = true ∧ getF t (arrPage c) Arr.csumValid ≠ 0 ∧ t.mem = s.mem)

/-- The drain path writes the oldest snapshot: each element, rounded once to the output format, at the address its descriptor gives, with its flags, and no other
byte but the row statistics a STAT asks for (R82 to R84). -/
def Obligations.ArrayDrainWrites : Prop :=
  ∀ (c : CoreId) (s : State) (d : Snapshot) (rest : List Snapshot) (f : Fmt), let k := getCore s c;
    k.snaps = d :: rest → fmtOf d.ofmt = some f →
    let outs := d.cells.map (fun e => (e.1, e.2.1, drainElem e.2.2.1 f d.sat e.2.2.2)); let at' := fun i j => spmBase c + outAddr d.odesc f i j;
    let isOut := fun x => ∃ e ∈ outs, at' e.1 e.2.1 ≤ x ∧ x < at' e.1 e.2.1 + fmtBytes f;
    let isStat := fun x => d.stat ≠ 0 ∧ ∃ e ∈ outs, spmBase c + dScaleBase d.odesc + 8 * e.1 ≤ x ∧ x < spmBase c + dScaleBase d.odesc + 8 * (e.1 + 1);
    (∀ x, isOut x ∨ isStat x → damageIn s x 1 = []) → ∃ t, exec (.arrDrainWrite c) s = .next t ∧
      coreTouches c (onlyFields (arrPage c) [(Arr.flags, 0)]) (fun x => isOut x ∨ isStat x) s t ∧
      getCore t c = { k with snaps := rest, stats := (getCore t c).stats } ∧ (d.stat = 0 → (getCore t c).stats = k.stats) ∧
      (∀ b, b < 5 → (outs.any (fun e => e.2.2.2.testBit b) || (getF s (arrPage c) Arr.flags).testBit b) = true → (getF t (arrPage c) Arr.flags).testBit b = true) ∧
      (outs.Pairwise (fun e g => at' e.1 e.2.1 + fmtBytes f ≤ at' g.1 g.2.1 ∨ at' g.1 g.2.1 + fmtBytes f ≤ at' e.1 e.2.1) → (∀ x, isOut x → ¬ isStat x) →
        ∀ e ∈ outs, memNat t (at' e.1 e.2.1) (fmtBytes f) = e.2.2.1 % 2 ^ (8 * fmtBytes f))

/-! ## Program faults (R88, R107) -/

/-- A program fault stops the core in FAULT, sets PROGRAM_FAULT, and records the instruction's address and the cause: 0x20 for an unused field that is not zero, 0x22
for an address that is not aligned, 0x23 for one outside the scratchpad, 0x24 for a bad target, 0x25 for a bad LOOP and 0x27 for unsorted set input. -/
def Obligations.ProgramFaults : Prop :=
  ∀ (c : CoreId) (w : IWord) (s : State), let k := getCore s c;
    (∀ e ∈ aluOps, canIssue k = true → k.pc < tpmEnd → (∀ r ∈ fRd w :: aluReads w, r = 0 ∨ r ∉ heldRegs k) → tblGet 0 k.tpmBad (k.pc / 8) = 0 →
      unusedZero w (aluUsed w) = false → ∃ t, exec (e.1 c w) s = .next t ∧ Faults c k.pc 0x20 t ∧ t.mem = s.mem) ∧
    (∀ e ∈ [((.ld, 8) : (CoreId → IWord → Instr) × Nat), (.ldw, 4)], let a := (sreg k (fRa w) + fImmS w).toNat; Ready c [pRd, pRa, pImm] [fRa w] w s (fRd w) →
      (a % e.2 ≠ 0 → ∃ t, exec (e.1 c w) s = .next t ∧ Faults c k.pc 0x22 t ∧ t.mem = s.mem) ∧
      (a % e.2 = 0 → spmSize < a + e.2 → ∃ t, exec (e.1 c w) s = .next t ∧ Faults c k.pc 0x23 t ∧ t.mem = s.mem)) ∧
    (Ready c [pRa] [fRa w] w s → goodTarget (sreg k (fRa w)).toNat = false → ∃ t, exec (.jr c w) s = .next t ∧ Faults c k.pc 0x24 t ∧ t.mem = s.mem) ∧
    (Ready c [pRa, pImm] [fRa w] w s → (4 ≤ k.loops.length ∨ fImm w = 0 ∨ 4096 < fImm w) →
      ∃ t, exec (.loop c w) s = .next t ∧ Faults c k.pc 0x25 t ∧ t.mem = s.mem) ∧
    (∀ o rest, let ks := if o.key64 then 8 else 4; k.mode = .run → k.setq = o :: rest → o.pc < tpmEnd → gSize o.ga = ks → gSize o.gb = ks →
      genClean c o.ga 0 o.na s → genClean c o.gb 0 o.nb s →
      ¬ ((genElems c o.ga o.na s).Pairwise (· ≤ ·) ∧ (genElems c o.gb o.nb s).Pairwise (· ≤ ·)) →
      ∃ t, exec (.setRunComplete c false) s = .next t ∧ Faults c o.pc 0x27 t ∧ (getCore t c).setq = rest ∧ (getCore t c).sregs = k.sregs)

/-- An illegal array operation stops the core in FAULT, sets ILLEGAL_OP in the arrays' page with the instruction's address and the lowest cause (R88). -/
def Obligations.IllegalArrayOperations : Prop :=
  ∀ (c : CoreId) (w : IWord) (s : State) (cause : Nat), let k := getCore s c;
    Ready c [(0, 56)] [aKreg w, aDimReg w] w s → mmaCause k (captureMma s c k w) (wf w 0 8 == 0) = some cause →
    ∃ t, exec (.arrMma c w) s = .next t ∧ (getCore t c).mode = .fault ∧ (getCore t c).cause = cause ∧ (getCore t c).ops = k.ops ∧
      (getF t (arrPage c) Hdr.err).testBit Arr.eIllegalOp = true ∧ getF t (arrPage c) Hdr.errAddrLo = k.pc ∧ getF t (arrPage c) Hdr.errInfo = cause ∧
      t.mem = s.mem

/-! ## Fabric (R173 to R178, R182, R186, R194) and the scratchpad patrol (R145) -/

/-- A packet crosses one router along its row first and then along its column, over the links to the next routing site, once they and the buffers ahead take it
(R173, R175); at its target it stays. Without room it waits, and a link that is held asks for its clusters' wake (R16, R352). A double-bit header error discards it (R186). -/
def Obligations.PacketHops : Prop :=
  ∀ (s : State) (i : Nat) (p : Packet) (via : Option Nat), findPacket s i = some p → p.phase = .moving via →
    let n := nextHop s p via; let q := { n with hops := p.hops + 1, port := entryPort p n }; let a := posRouter s p.row p.col; let b := posRouter s q.row q.col;
    (arrived p = true → exec (.dynamicPacketHop i .good) s = .next s) ∧
    (arrived p = false → hasRoom s q = true → linkOpen s a b → ∃ t, exec (.dynamicPacketHop i .good) s = .next t ∧
      t = { s with packets := t.packets, banks := t.banks, fld := t.fld, evtDue := t.evtDue, linkSent := t.linkSent, clus := t.clus } ∧
      t.packets = s.packets.map (fun x => if x.ident = p.ident then q else x)) ∧
    (arrived p = false → hasRoom s q = false → exec (.dynamicPacketHop i .good) s = .next s) ∧
    (∀ path, arrived p = false → hasRoom s q = true → linkPath s a b = some path → (pathLinks a path).any (linkHeld s) = true →
      ∃ t, exec (.dynamicPacketHop i .good) s = .next t ∧ t = { s with wakeReqs := t.wakeReqs } ∧
        ∀ e ∈ pathLinks a path, ∀ cl ∈ [clusterOfSite e.1, clusterOfSite e.2.1], 1 < clkState s cl → cl ∈ t.wakeReqs) ∧
    (via = none → p.col ≠ coreCol p.target → legBroken s p.row p.col (coreCol p.target) = false →
      n = { p with col := if p.col < coreCol p.target then p.col + 1 else p.col - 1 }) ∧
    (via = none → p.col = coreCol p.target → p.row ≠ coreRow p.target →
      n = { p with row := if p.row < coreRow p.target then p.row + 1 else p.row - 1 }) ∧
    (∃ t, exec (.dynamicPacketHop i .double) s = .next t ∧ t.packets = s.packets.map (fun x => if x.ident = p.ident then { p with phase := .lost } else x) ∧
      t.mem = s.mem ∧ t.cores = s.cores ∧ (getF t (rtrPage a) Hdr.err).testBit Rtr.eHdrUc = true)

/-- The oldest flit that feeds a channel crosses its link into the buffer downstream, or goes whole to the core's RECVs, what they do not take waiting in order; a SEND's next
64 bytes enter the core's own input buffer; a flit that arrives with an error stays and is an uncorrected error; nothing moves in a frozen Hedge or without a binding, a flit or a
RECV (R120, R173, R178, R182, R197). -/
def Obligations.StaticFlits : Prop :=
  ∀ (c : CoreId) (ch : Fin 8) (s : State), let k := getCore s c;
    let from' := fun o : Fin 5 => flitKey c (chanInPort s c o ch) (chanInCh s c o ch);
    let counts := fun (cs : List Nat) (t : State) => (∀ b, b ∉ cs → getBank t b = getBank s b) ∧ fldSame (fun key => ∃ x ∈ cs, counting x key) s t;
    (coreFrozen s c = true → ∀ mv err, exec (.staticFlit c mv ch err) s = .next s) ∧
    (∀ (o : Fin 5) err, chanValid s c o ch = false ∨ tblGet [] s.flits (from' o) = [] → exec (.staticFlit c (.out o) ch err) s = .next s) ∧
    (∀ (o : Fin 5) f rest d p, coreFrozen s c = false → chanValid s c o ch = true → tblGet [] s.flits (from' o) = f :: rest → linkOf c o = some (d, p) →
      (flitsAt s d p ch).length < 4 → linkOpen s (routingSite s c) (routingSite s d) →
      ∃ t, exec (.staticFlit c (.out o) ch .good) s = .next t ∧
        t = { s with flits := t.flits, banks := t.banks, fld := t.fld, evtDue := t.evtDue, linkSent := t.linkSent, clus := t.clus } ∧ counts [c.val, d] t ∧
        ∀ key, tblGet [] t.flits key = if key = flitKey d p ch then flitsAt s d p ch ++ [f] else if key = from' o then rest else tblGet [] s.flits key) ∧
    (∀ f rest i x, let bs := tblGet [] s.rest (8 * c.val + ch.val) ++ f; let n := min bs.length (x.total - x.moved);
      coreFrozen s c = false → chanValid s c 4 ch = true → tblGet [] s.flits (from' 4) = f :: rest →
      k.strs.findIdx? (fun y => y.recv && y.chan == ch.val) = some i → k.strs[i]? = some x → 0 < n →
      (x.moved + n = x.total → ∀ j y, j ≠ i → k.strs[j]? = some y → y.recv = true → y.chan ≠ ch.val) →
      (∀ q, q < n → damageIn s (genByteAddr c x.gen (x.moved + q)) 1 = []) →
      ∃ t, exec (.staticFlit c (.out 4) ch .good) s = .next t ∧
        t = { s with flits := t.flits, rest := t.rest, mem := t.mem, damage := t.damage, cores := t.cores, banks := t.banks, fld := t.fld, evtDue := t.evtDue } ∧
        counts [c.val] t ∧ (∀ e ∈ t.damage, e ∈ s.damage) ∧
        (∀ a, ¬ (∃ q, q < n ∧ a = genByteAddr c x.gen (x.moved + q)) → memByte t a = memByte s a) ∧
        ((∀ i j, i < n → j < n → genByteAddr c x.gen (x.moved + i) = genByteAddr c x.gen (x.moved + j) → i = j) →
          ∀ q, q < n → memByte t (genByteAddr c x.gen (x.moved + q)) = bs.getD q 0) ∧
        getCore t c = { k with strs := if x.moved + n = x.total then k.strs.eraseIdx i else k.strs.set i { x with moved := x.moved + n } } ∧
        (∀ d, d ≠ c.val → getCore t d = getCore s d) ∧ (∀ key, tblGet [] t.flits key = if key = from' 4 then rest else tblGet [] s.flits key) ∧
        ∀ key, tblGet [] t.rest key = if key = 8 * c.val + ch.val then bs.drop n else tblGet [] s.rest key) ∧
    (∀ i x, let n := min 64 (x.total - x.moved); let sz := gSize x.gen;
      coreFrozen s c = false → k.strs.findIdx? (fun y => !y.recv && y.chan == ch.val) = some i → k.strs[i]? = some x → (flitsAt s c 4 ch).length < 4 → 0 < n →
      genClean c x.gen (x.moved / sz) ((x.moved + n - 1) / sz + 1 - x.moved / sz) s →
      ∃ t bs, exec (.staticFlit c .inject ch .good) s = .next t ∧
        t = { s with flits := t.flits, cores := t.cores, banks := t.banks, fld := t.fld, evtDue := t.evtDue } ∧ counts [c.val] t ∧
        getCore t c = { k with strs := if x.moved + n = x.total then k.strs.eraseIdx i else k.strs.set i { x with moved := x.moved + n } } ∧
        (∀ d, d ≠ c.val → getCore t d = getCore s d) ∧
        (∀ key, tblGet [] t.flits key = if key = flitKey c 4 ch then flitsAt s c 4 ch ++ [bs] else tblGet [] s.flits key) ∧
        bs = if gMode x.gen = 1 then (lfsrBytes x.gen (x.moved + n)).drop x.moved else (List.range n).map (fun i => memByte s (genByteAddr c x.gen (x.moved + i)))) ∧
    (∀ (o : Fin 5) f rest err bit, coreFrozen s c = false → chanValid s c o ch = true → tblGet [] s.flits (from' o) = f :: rest →
      (err = .credit ∧ bit = Rtr.eCreditErr ∨ err = .parity ∧ bit = Rtr.eStaticParity ∧ o = 4 ∧ k.strs.any (fun x => x.recv && x.chan == ch.val) = true) →
      ∃ t, exec (.staticFlit c (.out o) ch err) s = .next t ∧ t.flits = s.flits ∧ t.rest = s.rest ∧ t.mem = s.mem ∧ t.cores = s.cores ∧
        (getF t (rtrPage (routingSite s c)) Hdr.err).testBit bit = true ∧
        ∀ h, hedgeOfCore s c = some h → (getHedge s h).state = .running → t.ucs = s.ucs ++ [⟨h, c, false⟩]) ∧
    (coreFrozen s c = false → k.strs.any (fun x => x.recv && x.chan == ch.val) = false → exec (.staticFlit c (.out 4) ch .good) s = .next s) ∧
    (coreFrozen s c = false → (k.strs.any (fun x => !x.recv && x.chan == ch.val) = false ∨ 4 ≤ (flitsAt s c 4 ch).length) → exec (.staticFlit c .inject ch .good) s = .next s)

/-- PLOT_HEDGE_UPDATE gives one router the Fabric Engine's table (R174). SPM_PATROL checks the granules at its position and moves on, counting a sweep at the
end; a single-bit error is corrected and a double-bit one poisons its word (R143 to R145). -/
def Obligations.TablesAndPatrol : Prop :=
  (∀ (p : SiteId) (s : State), ∃ t, exec (.plotHedgeUpdate p) s = .next t ∧ t = { s with rtrOwn := t.rtrOwn } ∧ routerTable t p = plotTable s ∧
    ∀ q, q ≠ p.val → routerTable t q = routerTable s q) ∧
  (∀ (c : CoreId) (s : State), let pg := spmPage c; let pos := getF s pg Spm.patrolPos; let base := spmBase c + 2048 * pos;
    clkState s (clusterOfCore s c) = 1 → damageIn s base 2048 = [] →
    (∃ t, exec (.spmPatrol c .good) s = .next t ∧ t = { s with fld := t.fld } ∧ getF t pg Spm.patrolPos = (pos + 1) % 2048 ∧
      getF t pg Spm.patrolSweeps = (if pos + 1 = 2048 then (getF s pg Spm.patrolSweeps + 1) % 2 ^ 32 else getF s pg Spm.patrolSweeps) ∧
      fldSame (onlyFields pg [(Spm.patrolPos, 0), (Spm.patrolSweeps, 0)]) s t) ∧
    (∀ i : Fin 256, pos < 2048 → ∃ t, exec (.spmPatrol c (.single i)) s = .next t ∧ damageIn t base 2048 = [] ∧ t.mem = s.mem ∧ t.cores = s.cores ∧
      getF t pg Spm.ceCnt = (getF s pg Spm.ceCnt + 1) % 2 ^ 32) ∧
    (∀ i : Fin 256, pos < 2048 → ∃ t, exec (.spmPatrol c (.double i)) s = .next t ∧ damageIn t base 2048 = [(base + 8 * i.val, 3)] ∧ t.mem = s.mem ∧
      t.cores = s.cores ∧ getF t pg Spm.ucCnt = (getF s pg Spm.ucCnt + 1) % 2 ^ 32 ∧ (getF t pg Hdr.err).testBit Spm.ePatrolUc = true))

/-! ## Hedges (R200, R214 to R227) -/

/-- BIND_HEDGE of a free rectangle takes its plots: the state is BOUND, every router holds the table, the number's counters and EVT_ADMIT are zero. A refusal
names the first condition of R216 that fails and changes nothing of any Hedge (R174, R211, R215, R216). -/
def Obligations.HedgeBinding : Prop :=
  ∀ (h : HedgeId) (s : State) (f : Flight), let k := getHedge s h; let plot := dNat f.desc 0x10 1; let w := dNat f.desc 0x11 1; let ht := dNat f.desc 0x12 1;
    startedOp s h 1 = some f → k.state = .unbound →
    (bindCause s plot w ht = 0 → ∃ t, exec (.bindHedge h) s = .next t ∧
      t = { s with hedges := t.hedges, queues := t.queues, banks := t.banks, evt := t.evt, fld := t.fld, rtrAll := t.rtrAll, rtrOwn := [], cores := t.cores,
                   idleAt := t.idleAt, tests := t.tests } ∧
      Completed h f {} s t ∧ (∀ g, g ≠ h.val → getHedge t g = getHedge s g) ∧
      getHedge t h = { k with state := .bound, plot := plot, width := w, height := ht, postmortem := (dNat f.desc 0x13 1).testBit 0,
                              steered := (dNat f.desc 0x13 1).testBit 1, sgroup := dNat f.desc 0x14 1, commitB := false, spareExh := false } ∧
      t.rtrAll = plotTable t ∧ getF t (hdgPage h) Hdg.evtAdmit = 0 ∧ hb t h Pct.hbSgroup = dNat f.desc 0x14 1 ∧
      hb t h Pct.hbSteered = (if (dNat f.desc 0x13 1).testBit 1 then 1 else 0) ∧
      (∀ i, tblFind i t.evt = if 128 * h.val ≤ i ∧ i < 128 * h.val + 128 then none else tblFind i s.evt) ∧
      ∀ c, (getCore s c).mode ≠ .test → getCore t c = getCore s c) ∧
    (∀ cause, bindCause s plot w ht = cause → cause ≠ 0 → ∃ t, exec (.bindHedge h) s = .next t ∧ t = { s with queues := t.queues, banks := t.banks } ∧
      Completed h f { status := stBindRefused, info := cause } s t)

/-- LOAD_IMAGE of an image that passes every check gives each core its program and nothing of an earlier image, and the Hedge is READY with COMMIT at copy A; a
refused image leaves every core and router as it was, and a header outside the Hedge's segments is refused with cause 0x01. It waits until the Hedge's clusters are awake (R146); a
parity error on its way in ends it with DATA_UC and loads nothing (R187, R188, R190, R239). -/
def Obligations.ImageLoading : Prop :=
  ∀ (h : HedgeId) (s : State) (f : Flight) (size : Nat) (img : List Byte), let k := getHedge s h; let a := dNat f.desc 0x10 8;
    startedOp s h 2 = some f → inGrid k → (k.state = .bound ∨ k.state = .ready) → Sound s →
    (hedgeAwake s k = false → ∀ bad, exec (.loadImage ⟨h, bad⟩) s = .next (wakeAll (liveClusters s k) s)) ∧
    (hedgeAwake s k = true → mereOwned s h a 384 = false → ∀ bad, ∃ t, exec (.loadImage ⟨h, bad⟩) s = .next t ∧ t = { s with queues := t.queues, banks := t.banks } ∧
      Completed h f { status := stImageRefused, info := 0x01 } s t) ∧
    (hedgeAwake s k = true → mereOwned s h a 384 = true → ∃ t e, exec (.loadImage ⟨h, true⟩) s = .next t ∧ Completed h f e s t ∧ e.status = stDataUc ∧
      t = { s with queues := t.queues, banks := t.banks, fld := t.fld, evtDue := t.evtDue, freeCtr := t.freeCtr } ∧
      (getF t (quePage h) Hdr.err).testBit Que.eParity = true) ∧
    (hedgeAwake s k = true → mereOwned s h a 384 = true → (readImage h a s).1 = none → (readImage h a s).2.1 = size → (readImage h a s).2.2.1 = img →
    (imageCause s h k a size img ≠ 0 → ∃ t, exec (.loadImage ⟨h, false⟩) s = .next t ∧
      Completed h f { status := stImageRefused, info := imageCause s h k a size img } s t ∧ t.mem = s.mem ∧ t.hedges = s.hedges ∧
      (∀ c, (getCore s c).mode ≠ .test → getCore t c = getCore s c) ∧ ∀ p i fl, p < 4608 → i < 40 → fl ∈ Rtr.fields → 0x100 ≤ fl.off → getF t (rtrPage p) fl i = getF s (rtrPage p) fl i) ∧
    (imageCause s h k a size img = 0 → imgManifest img = [] → ∃ t, exec (.loadImage ⟨h, false⟩) s = .next t ∧ Completed h f {} s t ∧
      getHedge t h = { k with state := .ready, image := a, manifest := [], commitB := false, ponded := false, reload := [] } ∧ t.mem = s.mem ∧
      (∀ g, g ≠ h.val → getHedge t g = getHedge s g) ∧
      ∀ i r, i < 128 * k.width * k.height → coreRecords img 1 i = [r] → ∀ n, tblGet 0 (getCore t (hedgeCoreAt k i)).tpm n =
        if n < bNat r 4 4 then BitVec.ofNat 64 (progWord img r n) else 0))

/-- RUN_STEP on a READY Hedge records the step, clears every core's ARR_FLAGS and asks for its clusters, after the restore it asks for, which waits until they are awake (R146). Once
every cluster is clocked and has had its forecast for 1 µs, the first STEP_START makes the Hedge RUNNING, and a core starts at its entry with s1 holding ARG and every other register
zero and free of damage; until then none starts (R99, R218, R219). -/
def Obligations.StepStarts : Prop :=
  (∀ (h : HedgeId) (s : State) (f : Flight), let k := getHedge s h; let d := f.desc;
    startedOp s h 3 = some f → inGrid k → k.run = none → k.state = .ready → (failedIn s k).isEmpty = true → tblFind h s.shifts = none → k.reload = [] →
    ((dNat d 0x19 1).testBit 1 = true → hedgeAwake s k = false → ∀ bad, exec (.runStep ⟨h, bad⟩) s = .next (wakeAll (liveClusters s k) s)) ∧
    (((dNat d 0x19 1).testBit 1 = true → hedgeAwake s k = true) → let a := if (dNat d 0x19 1).testBit 1 then restoreRegions h k true s else (none, s);
    a.1 = none → (∀ c, getHedge a.2 c = getHedge s c) →
    ∃ t, exec (.runStep ⟨h, false⟩) s = .next t ∧
      t = { a.2 with hedges := t.hedges, fld := t.fld, wakeReqs := t.wakeReqs, cores := t.cores, idleAt := t.idleAt, tests := t.tests } ∧
      (getHedge t h).state = .ready ∧ (getHedge t h).ponded = true ∧ (∀ g, g ≠ h.val → getHedge t g = getHedge s g) ∧
      (∃ r : StepRun, (getHedge t h).run = some r ∧ r.entry = dNat d 0x18 1 ∧ r.arg = dNat d 0x10 8 ∧ r.once = (dNat d 0x19 1).testBit 0 ∧
        r.forecast = dNat d 0x1A 1 ∧ r.attempts = 1 ∧ r.armed = true) ∧
      (∀ c ∈ stepCores a.2 k, getF t (arrPage c) Arr.flags = 0) ∧ ∀ cl ∈ liveClusters a.2 k, 1 < clkState t cl → cl ∈ t.wakeReqs)) ∧
  (∀ (c : CoreId) (s : State) (h : Nat) (r : StepRun), let k := getCore s c; let hk := getHedge s h; let addr := bitsOf (tblGet 0 k.tpm r.entry).toNat 0 17;
    hedgeOfCore s c = some h → hk.run = some r → k.mode = .idle → (siteOf s c).isSome = true → s.jobs = [] →
    let may := if r.armed then mayStart s h hk r else hk.state == .running;
    (may = true → goodTarget addr = true → ∃ t, exec (.stepStart c) s = .next t ∧
      t = { s with cores := t.cores, hedges := t.hedges, fld := t.fld, banks := t.banks, evtDue := t.evtDue, clus := t.clus, freeCtr := t.freeCtr } ∧
      (getHedge t h).state = .running ∧ (getHedge t h).run = some { r with armed := false, start := if r.armed then s.now else r.start } ∧
      (∀ g, g ≠ h → getHedge t g = getHedge s g) ∧ (∀ d, d ≠ c.val → getCore t d = getCore s d) ∧
      getCore t c = { stepReset r.entry r.arg k with pc := addr, mode := .run } ∧
      (∀ i, sreg (getCore t c) i = if i = 1 then BitVec.ofNat 64 r.arg else 0) ∧ (∀ i, tblGet 0 (getCore t c).regBad i = 0 ∧ tblGet 0 (getCore t c).slotBad i = 0) ∧
      (getCore t c).vl = 256 ∧ getF t (vecPage c) Vec.flags = 0) ∧
    (may = true → goodTarget addr = false → ∃ t, exec (.stepStart c) s = .next t ∧ Faults c addr 0x24 t) ∧
    (may = false → exec (.stepStart c) s = .next s)) ∧
  (∀ (s : State) (h : Nat) (k : Hedge) (r : StepRun), mayStart s h k r = true ↔ (k.state = .ready ∨ k.state = .frozen) ∧
    (∀ cl ∈ liveClusters s k, clkState s cl = 1 ∧ cl ∈ r.told) ∧ r.toldAt + 100 ≤ s.now ∧ failedIn s k = [] ∧ tblFind h s.shifts = none ∧ (getQueue s h).resetting = false)

/-- A step whose cores are all DONE ends OK with COMMIT inverted; a core in FAULT ends it with PROGRAM_ERROR and 400,000 reference edges with WATCHDOG, its
channels flushed; bytes left in a channel after every core is DONE end it with PROGRAM_ERROR and cause 0x2E against the receiving core. The Hedge is READY and its cores are IDLE (R187, R218, R220, R221). -/
def Obligations.StepEnds : Prop :=
  ∀ (h : HedgeId) (s : State) (f : Flight) (r : StepRun), let k := getHedge s h; let cores := stepCores s k; let nf := stepFlags s cores;
    startedOp s h 3 = some f → k.run = some r → k.state = .running → s.jobs = [] →
    let ended := fun (i : Instr) (e : Ending) (commit : Bool) (flushed : Bool) => ∃ t, exec i s = .next t ∧
      Completed h f { e with nflags := nf, attempts := r.attempts } s t ∧
      (getHedge t h).state = .ready ∧ (getHedge t h).run = none ∧ (getHedge t h).commitB = commit ∧ (∀ g, g ≠ h.val → getHedge t g = getHedge s g) ∧
      (∀ c ∈ cores, getCore t c = coreEnd (getCore s c)) ∧ (∀ c, c ∉ cores → getCore t c = getCore s c) ∧ (flushed = true → channelBytesLeft t cores = none) ∧
      t.mem = s.mem ∧ t.conns = s.conns ∧ t.damage = s.damage ∧ t.evt = s.evt;
    ((∀ c ∈ cores, (getCore s c).mode = .done) → channelBytesLeft s cores = none → s.ucs.any (fun u => u.hedge == h.val) = false →
      k.manifest.filter (fun g => g.snapshot) = [] → ended (.stepDone ⟨h, false⟩) {} (!k.commitB) false) ∧
    ((∀ c ∈ cores, (getCore s c).mode = .done) → ∀ x (c : CoreId), channelBytesLeft s cores = some x →
      ended (.programError h c) { status := stProgramError, detail := bytesDest s x + 0x2E * 2 ^ 16 } k.commitB true) ∧
    (∀ c : CoreId, c.val ∈ cores → (getCore s c).mode = .fault →
      ended (.programError h c) { status := stProgramError, detail := c.val + (getCore s c).cause * 2 ^ 16 } k.commitB true) ∧
    (r.start + 400000 ≤ s.now → ended (.watchdog h)
      { status := stWatchdog, detail := (cores.find? (fun c => (getCore s c).mode != .done)).getD 0 } k.commitB true)

/-- An uncorrected error freezes its RUNNING Hedge: cores in RUN or DONE are FROZEN with their operations abandoned, the drains of tiles whose check failed are written and no other
(R81), and no other Hedge changes. A replay within REPLAY_MAX flushes the channels, restores the Ponds and arms the attempt again, its forecasts to come anew; ONCE and a used-up
REPLAY_MAX end the step instead (R153, R182, R183, R222, R223, R432). -/
def Obligations.FreezeAndReplay : Prop :=
  (∀ (h : HedgeId) (s : State) (r : StepRun) (u : UcReport), let k := getHedge s h; let cores := stepCores s k;
    inGrid k → k.state = .running → k.run = some r → r.armed = false → s.ucs.find? (fun u => u.hedge == h.val) = some u → tblFind h s.shifts = none → s.jobs = [] →
    let stops := failedIn s k = [] ∧ (r.once = true ∨ getF s (hdgPage h) Hdg.replayMax < r.attempts);
    let tpm := (s.ucs.filter (fun x => x.hedge == h.val && x.tpm)).map (fun x => x.core);
    (¬ stops → ∃ t, exec (.hedgeFreeze h none) s = .next t ∧
      getHedge t h = { k with state := .frozen, run := some { r with reporter := u.core }, rewrite := k.rewrite ++ tpm } ∧
      (∀ g, g ≠ h.val → getHedge t g = getHedge s g) ∧ t.ucs = s.ucs.filter (fun u => u.hedge != h.val) ∧
      (∀ c ∈ cores, ((getCore s c).mode = .run ∨ (getCore s c).mode = .done) →
        getCore t c = { abandon (getCore s c) with mode := .frozen, stats := (getCore t c).stats }) ∧
      (∀ c ∈ cores, (getCore s c).mode ≠ .run → (getCore s c).mode ≠ .done → getCore t c = { getCore s c with snaps := [], stats := (getCore t c).stats }) ∧
      (∀ c, c ∉ cores → getCore t c = getCore s c) ∧ t.queues = s.queues ∧ t.flits = s.flits ∧ t.rest = s.rest ∧ t.packets = s.packets ∧ t.evt = s.evt ∧ t.conns = s.conns ∧
      ((∀ c ∈ cores, ∀ d ∈ (getCore s c).snaps, d.failed = false) → (∀ c ∈ cores, (getCore t c).stats = (getCore s c).stats) ∧
        t = { s with cores := t.cores, hedges := t.hedges, ucs := t.ucs, tagged := t.tagged, fld := t.fld } ∧ fldSame (fun key => ∃ c ∈ cores, counting c key) s t)) ∧
    (∀ f, stops → startedOp s h 3 = some f → (getQueue s h).resetting = false →
      ∃ t nf, exec (.hedgeFreeze h none) s = .next t ∧ (getHedge t h).state = .ready ∧ (getHedge t h).run = none ∧ (getHedge t h).commitB = k.commitB ∧
        (∀ g, g ≠ h.val → getHedge t g = getHedge s g) ∧ (∀ c ∈ cores, (getCore t c).mode ≠ .run ∧ (getCore t c).mode ≠ .frozen) ∧
        (∀ c, c ∉ cores → getCore t c = getCore s c) ∧ channelBytesLeft t cores = none ∧
        Completed h f { status := if r.once then stUcNotReplayed else stReplayLimit, detail := u.core, nflags := nf, attempts := r.attempts } s t)) ∧
  (∀ (h : HedgeId) (s : State) (x : UcSource), (getHedge s h).state = .running → hedgeOfCore s x.core = some h.val → (siteOf s x.core).isSome = true →
    let corrected := (∃ w, x.kind = .tpm w false) ∨ (∃ r, x.kind = .reg r false) ∨ (∃ i, x.kind = .acc i false);
    exec (.hedgeFreeze h (some x)) s = exec (.hedgeFreeze h none) (detect x s) ∧ (corrected → (detect x s).ucs = s.ucs) ∧
    (¬ corrected → ∃ tpm, (detect x s).ucs = s.ucs ++ [⟨h, x.core, tpm⟩])) ∧
  (∀ (h : HedgeId) (s : State), (getHedge s h).state ≠ .running → ∀ x, exec (.hedgeFreeze h x) s = .next s) ∧
  (∀ (h : HedgeId) (s : State) (r : StepRun), let k := getHedge s h; let cores := stepCores s k;
    inGrid k → k.state = .frozen → k.run = some r → r.armed = false → k.spareExh = false → k.killWaits = false → failedIn s k = [] → tblFind h s.shifts = none →
    (hedgeAwake s k = false → ∀ bad, exec (.replay h bad) s = .next (wakeAll (liveClusters s k) s)) ∧
    (hedgeAwake s k = true → k.reload = [] → k.rewrite = [] → k.manifest = [] → (getQueue s h).resetting = false →
      ∃ t, exec (.replay h false) s = .next t ∧
        t = { s with cores := t.cores, hedges := t.hedges, fld := t.fld, flits := t.flits, rest := t.rest, banks := t.banks, evtDue := t.evtDue,
                     wakeReqs := t.wakeReqs } ∧
        getHedge t h = { k with run := some { r with attempts := r.attempts + 1, armed := true, told := [] } } ∧ (∀ g, g ≠ h.val → getHedge t g = getHedge s g) ∧
        channelBytesLeft t (hedgeCores k) = none ∧ (∀ i, (∀ c ∈ hedgeCores k, i < 40 * c ∨ 40 * c + 40 ≤ i) → tblFind i t.flits = tblFind i s.flits) ∧
        (∀ i, (∀ c ∈ hedgeCores k, i < 8 * c ∨ 8 * c + 8 ≤ i) → tblFind i t.rest = tblFind i s.rest) ∧
        getF t (hdgPage h) Hdg.replayCnt = (getF s (hdgPage h) Hdg.replayCnt + 1) % 2 ^ 32 ∧
        (∀ c ∈ hedgeCores k, let x := { getCore s c with ponds := (tblGet [] k.pondArm c).map (fun e => (e.1, { e.2 with closeRd := none })) };
          getCore t c = if c ∈ cores then coreEnd x else x) ∧ (∀ c, c ∉ hedgeCores k → getCore t c = getCore s c) ∧
        (∀ c ∈ hedgeCores k, ∀ key, pondLo c ≤ key → key < pondHi c → (k.pondFld.map Prod.fst).Nodup → tblFind key t.fld = tblFind key k.pondFld) ∧
        fldSame (fun key => (∃ c ∈ hedgeCores k, pondLo c ≤ key ∧ key < pondHi c) ∨ key = fkey (hdgPage h) Hdg.replayCnt 0 ∨
          ∃ half, half < 2 ∧ inRange (bankBase (feBank half)) (bankBase (feBank half) + 0x1000) key) s t ∧
        ∀ cl ∈ liveClusters s k, 1 < clkState s cl → cl ∈ t.wakeReqs))

/-- A kill ends a binding at once: to RETAINED with its Ponds CLOSED where the binding asked for it and an owner is there, else to SCRUBBING. SCRUB_HEDGE, SCRUB and the
end of a retention scrub; the scrub leaves every core of the plots zero and the number UNBOUND with its owner (R156 to R158, R215, R217, R237). -/
def Obligations.KillsAndScrubs : Prop :=
  ∀ (h : HedgeId) (conn : ConnId) (s : State), let k := getHedge s h; inGrid k → s.jobs = [] → tblFind h s.shifts = none →
    let others := fun t : State => ∀ g, g ≠ h.val → getHedge t g = getHedge s g;
    let killed := fun t : State => others t ∧ t.mem = s.mem ∧ (getHedge t h).owner = k.owner ∧ (getHedge t h).run = none ∧
      (if k.postmortem = true ∧ k.owner.isSome = true then (getHedge t h).state = .retained ∧ (getHedge t h).killedAt = s.now ∧
          (∀ c ∈ hedgeCores k, ∀ p, p < 16 → pondState t c p = pondClosed) else (getHedge t h).state = .scrubbing) ∧
      ∀ c ∈ stepCores s k, (getCore t c).mode ≠ .run;
    let scrubs := fun t : State => others t ∧ t.mem = s.mem ∧ (getHedge t h).state = .scrubbing ∧ ∀ c ∈ hedgeCores k, getF t (spmPage c) Spm.scrub = 1;
    let idle := k.state = .bound ∨ k.state = .ready ∨ k.state = .frozen ∧ k.spareExh = true;
    (ownsHedge s conn h = true → (k.state = .bound ∨ k.state = .ready ∨ k.state = .running ∨ k.state = .frozen) →
      ∃ t, exec (.kill conn h) s = .next t ∧ killed t) ∧
    (ownsHedge s conn h = false ∨ k.state = .unbound ∨ k.state = .scrubbing ∨ k.state = .retained → exec (.kill conn h) s = .next s) ∧
    (∀ f, startedOp s h 7 = some f → f.met = false → idle → k.run = none → ∃ t, exec (.resetHedge h) s = .next t ∧ killed t) ∧
    (∀ f, startedOp s h 8 = some f → f.met = false → (idle ∨ k.state = .retained) → ∃ t, exec (.scrubHedge h) s = .next t ∧ scrubs t) ∧
    (ownsHedge s conn h = true → (idle ∨ k.state = .retained) → ∃ t, exec (.scrub conn h) s = .next t ∧ scrubs t) ∧
    (k.state = .retained → k.killedAt + 1000000000 ≤ s.now → ∃ t, exec (.retentionEnd h) s = .next t ∧ scrubs t) ∧
    (k.state = .scrubbing → clocked s k = true → failedIn s k = [] → s.doomed = [] → ∃ t, exec (.scrubComplete h) s = .next t ∧ others t ∧
      getHedge t h = { owner := k.owner } ∧ t.rtrAll = plotTable t ∧
      (∀ c ∈ hedgeCores k, (siteOf s c).isSome = true → getCore t c = scrubbedCore ∧ getF t (spmPage c) Spm.scrub = 0 ∧ getF t (spmPage c) Hdr.err = 0 ∧ getF t (seqPage c) Hdr.err = 0 ∧
        ∀ a, spmBase c ≤ a → a < spmBase c + spmSize → memByte t a = 0) ∧
      ∀ a, plotOfCore (a / spmSize) ∉ hedgePlots k → memByte t a = memByte s a)

/-- Event counters (R210, R211, R215): SIGNAL_EVENT adds modulo 2^64 or sets, WAIT_EVENT completes at or above VALUE, a waiter that has been met stays eligible, and
the owner writes a counter through its staged high word and reads it through its latch. FENCE completes when what it waits for has. -/
def Obligations.EventCounters : Prop :=
  (∀ (h : HedgeId) (s : State) (f : Flight), let i := dNat f.desc 0x10 2; let v := dNat f.desc 0x18 8; let x := tblGet 0 s.evt i;
    (startedOp s h 5 = some f → ctrAdmits s h i = true → ∃ t, exec (.signalEvent h) s = .next t ∧
      t = { s with queues := t.queues, banks := t.banks, evt := t.evt } ∧ Completed h f {} s t ∧
      ∀ j, tblGet 0 t.evt j = if j = i then (if dNat f.desc 0x12 1 = 0 then (x + v) % 2 ^ 64 else v % 2 ^ 64) else tblGet 0 s.evt j) ∧
    (startedOp s h 6 = some f → ctrAdmits s h i = true → f.met = false →
      (v ≤ x → ∃ t, exec (.waitEvent h) s = .next t ∧ t = { s with queues := t.queues, banks := t.banks } ∧ Completed h f { detail := x } s t) ∧
      (x < v → exec (.waitEvent h) s = .next s)) ∧
    (startedOp s h 4 = some f → (∀ e ∈ f.fence, ∀ y ∈ (getQueue s e.1).flights, y.index ≠ e.2) → (∀ e ∈ f.fence, ∀ y ∈ (getQueue s e.1).compl, y.index ≠ e.2) →
      ∃ t, exec (.fence h) s = .next t ∧ t = { s with queues := t.queues, banks := t.banks } ∧ Completed h f {} s t)) ∧
  (∀ (q : QueueId) (s : State), exec (.eventWaitMet q) s = .next (putQueue q { getQueue s q with flights := (getQueue s q).flights.map (fun f =>
      match waitMetNow s q f with
      | some v => if f.met then f else { f with met := true, seen := v }
      | none => f) } s)) ∧
  (∀ (conn : ConnId) (i : CtrId) (v : Word32) (s : State),
    (ownsHedge s conn (ctrHome i) = true →
      (∃ t, exec (.evtHiWrite conn i v) s = .next t ∧ t = { s with evtStage := t.evtStage } ∧
        ∀ j, tblGet 0 t.evtStage j = if j = i.val then v.toNat else tblGet 0 s.evtStage j) ∧
      (∃ t, exec (.evtLoWrite conn i v) s = .next t ∧ t = { s with evt := t.evt } ∧
        ∀ j, tblGet 0 t.evt j = if j = i.val then (tblGet 0 s.evtStage i * 2 ^ 32 + v.toNat) % 2 ^ 64 else tblGet 0 s.evt j) ∧
      (∃ t, exec (.evtLoRead conn i) s = .next t ∧ t = { s with evtLatch := t.evtLatch } ∧
        ∀ j, tblGet 0 t.evtLatch j = if j = i.val then tblGet 0 s.evt i / 2 ^ 32 else tblGet 0 s.evtLatch j)) ∧
    (ownsHedge s conn (ctrHome i) = false → ∀ c ∈ [Instr.evtHiWrite conn i v, .evtLoWrite conn i v, .evtLoRead conn i], exec c s = .next s))

/-- A queue's work (R204 to R209, R212): a doorbell within the ring takes the new TAIL and any other only sets DB_ERR; the descriptor at HEAD is read and checked; it starts
when its conditions hold; its record goes into slot CQ_TAIL mod 2^M with the PHASE of the pass, and its signal adds one to the counter. -/
def Obligations.QueueWork : Prop :=
  ∀ (q : QueueId) (s : State), let k := getQueue s q; let pg := quePage q; let head := getF s pg Que.head; let ring := 2 ^ getF s pg Que.ringLog2;
    (∀ (conn : ConnId) (tail : Word32), ownsHedge s conn (queHedge s q) = true →
      (ringDist head tail.toNat ≤ ring → ringDist k.tail tail.toNat ≤ ring → exec (.qDoorbell conn q tail) s = .next (putQueue q { k with tail := tail.toNat } s)) ∧
      (ring < ringDist head tail.toNat ∨ ring < ringDist k.tail tail.toNat → exec (.qDoorbell conn q tail) s = .next (putQueue q { k with dbErr := true } s))) ∧
    (let a := getF s pg Que.baseHi * 2 ^ 32 + getF s pg Que.baseLo + 64 * (head % ring); let d := memList s a 64;
      canFetch s q = true → mereOwned s (queHedge s q) a 64 = true → Sound s →
      (descBad q d = none → eventDenied s q d = none → ∃ t, exec (.descriptorFetch q false) s = .next t ∧ movesOnly s t ∧ t.mem = s.mem ∧
        getF t pg Que.head = (head + 1) % 2 ^ 32 ∧
        getQueue t q = { k with half := halfOf s q, flights := k.flights ++ [{ index := head, desc := d, started := false, start := s.engCyc, met := false }] }) ∧
      (∀ off, descBad q d = some off → ∃ t, exec (.descriptorFetch q false) s = .next t ∧ movesOnly s t ∧ t.mem = s.mem ∧
        getF t pg Que.head = (head + 1) % 2 ^ 32 ∧
        Completed q { index := head, desc := d, started := false, start := s.engCyc, met := false } { status := stDescInvalid, detail := off } s t) ∧
      (∀ i, descBad q d = none → eventDenied s q d = some i → ∃ t, exec (.descriptorFetch q false) s = .next t ∧ movesOnly s t ∧ t.mem = s.mem ∧
        Completed q { index := head, desc := d, started := false, start := s.engCyc, met := false } { status := stEventDenied, detail := i } s t)) ∧
    (∀ f, k.flights.find? (fun x => !x.started) = some f → canStart s q f = true → ∃ t, exec (.descriptorStart q) s = .next t ∧
      t = { s with queues := t.queues, banks := t.banks } ∧ (∀ p, p ≠ q.val → getQueue t p = getQueue s p) ∧
      ∃ fence, getQueue t q = { k with flights := k.flights.map (fun x => if x.index = f.index then { x with started := true, start := s.engCyc, fence := fence }
        else x) }) ∧
    (∀ c rest, let n := getF s pg Que.cqTail; let m := getF s pg Que.cqLog2;
      let a := getF s pg Que.cqBaseHi * 2 ^ 32 + getF s pg Que.cqBaseLo + 32 * (n % 2 ^ m); let bs := complBytes c (stepCode s) ((n / 2 ^ m + 1) % 2);
      k.compl = c :: rest → k.held = false → cqFull s q = false → mereOwned s (queHedge s q) a 32 = true → a % 32 = 0 → Sound s → s.resetReq = none →
      ∃ t, exec (.completionWrite ⟨q, false⟩) s = .next t ∧
        t = { s with mem := t.mem, queues := t.queues, chans := t.chans, banks := t.banks, fld := t.fld, evtDue := t.evtDue, evt := t.evt,
                     notices := t.notices } ∧
        getQueue t q = { k with compl := rest } ∧ getF t pg Que.cqTail = (n + 1) % 2 ^ 32 ∧ bs.length = 32 ∧
        (∀ x, memByte t x = if a ≤ x ∧ x < a + 32 then bs.getD (x - a) 0 else memByte s x) ∧
        (∀ i, tblGet 0 t.evt i = if c.signal = some i then (tblGet 0 s.evt i + 1) % 2 ^ 64 else tblGet 0 s.evt i) ∧
        t.notices = s.notices ++ if c.event = true ∨ getF s pg Que.eventAll = 1 then [.completion (queHedge s q) q bs] else []) ∧
    (∀ c rest, let a := getF s pg Que.cqBaseHi * 2 ^ 32 + getF s pg Que.cqBaseLo + 32 * (getF s pg Que.cqTail % 2 ^ getF s pg Que.cqLog2);
      k.compl = c :: rest → k.held = false → cqFull s q = false → mereOwned s (queHedge s q) a 32 = false →
      ∀ bad, ∃ t, exec (.completionWrite ⟨q, bad⟩) s = .next t ∧ t = { s with queues := t.queues, fld := t.fld, evtDue := t.evtDue } ∧
        getQueue t q = { k with held := true, stopped := true } ∧ (getF t pg Hdr.err).testBit Que.eCqWriteErr = true)

/-- A queue's owner resets and resumes it and writes Q_CFG; Mere's segments are assigned, released and filled with zeros; a number is claimed and released (R200 to R202, R206,
R232, R235, R237, R238). A connection without the right changes nothing. -/
def Obligations.OwnersAndSegments : Prop :=
  (∀ (conn : ConnId) (q : QueueId) (s : State), let k := getQueue s q; let pg := quePage q;
    (ownsHedge s conn (queHedge s q) = true → s.jobs = [] → (q.val < 32 → (getHedge s q).run = none ∧ (getHedge s q).state ≠ .frozen) →
      ∃ t, exec (.reset conn q) s = .next t ∧ t = { s with queues := t.queues, banks := t.banks } ∧ (∀ p, p ≠ q.val → getQueue t p = getQueue s p) ∧
        (getQueue t q).stopped = true ∧ (getQueue t q).flights = [] ∧ (getQueue t q).resetting = false ∧ (getQueue t q).tail = k.tail ∧
        ∃ cs : List Compl, (getQueue t q).compl = k.compl ++ cs ∧ cs.map (fun c => c.index) = k.flights.map (fun f => f.index) ∧
          ∀ c ∈ cs, c.status = stAborted) ∧
    (∀ h : HedgeId, q.val = h.val → ownsHedge s conn h = true → (getHedge s h).state = .frozen → (getHedge s h).spareExh = false →
      ((getHedge s h).run = none ∨ (∃ r, (getHedge s h).run = some r ∧ r.armed = false) ∨ failedIn s (getHedge s h) ≠ [] ∨ tblFind h s.shifts ≠ none) →
      exec (.reset conn q) s = .next (putQueue q { k with resetting := true } s)) ∧
    (ownsHedge s conn (queHedge s q) = true → exec (.resume conn q) s = .next (putQueue q { k with stopped := false, held := false } s)) ∧
    (ownsHedge s conn (queHedge s q) = false → exec (.reset conn q) s = .next s ∧ exec (.resume conn q) s = .next s) ∧
    (∀ v : Word32, let x := v.toNat; let n := bitsOf x 12 5; let m := bitsOf x 17 5; mayWriteCfg s conn q x = true →
      (4 ≤ n → n ≤ 16 → 4 ≤ m → m ≤ 16 → getF s pg Que.en ≠ 1 → ∃ t, exec (.qCfgWrite conn q v) s = .next t ∧ t = { s with fld := t.fld } ∧
        (q.val < 32 ∨ getF t pg Que.hedge = bitsOf x 0 5) ∧ getF t pg Que.en = bitsOf x 8 1 ∧ getF t pg Que.stopOnErr = bitsOf x 9 1 ∧
        getF t pg Que.eventAll = bitsOf x 10 1 ∧ getF t pg Que.ringLog2 = n ∧ getF t pg Que.cqLog2 = m ∧
        fldSame (onlyFields pg [(Que.hedge, 0), (Que.en, 0), (Que.stopOnErr, 0), (Que.eventAll, 0), (Que.ringLog2, 0), (Que.cqLog2, 0)]) s t) ∧
      (n < 4 ∨ 16 < n ∨ m < 4 ∨ 16 < m → exec (.qCfgWrite conn q v) s = .next (putQueue q { k with cfgErr := true } s))) ∧
    (∀ v : Word32, mayWriteCfg s conn q v.toNat = false → exec (.qCfgWrite conn q v) s = .next s) ∧
    (∀ v, mayWriteCfg s conn q v = true ↔ if q.val < 32 then ownsHedge s conn q = true else ownsHedge s conn (bitsOf v 0 5) = true ∧
      (ownsHedge s conn (queHedge s q) = true ∨ (getHedge s (queHedge s q)).owner = none))) ∧
  (∀ (conn : ConnId) (g : SegId) (h : HedgeId) (s : State),
    (ownsHedge s conn h = true → g.val < getF s segPage Seg.count → segAssigned s g = false → segScrubbing s g = false →
      ∃ t, exec (.segOwnerAssign conn g h) s = .next t ∧ t = { s with fld := t.fld } ∧ segAssigned t g = true ∧ segHedge t g = h.val ∧
        ∀ x, x ≠ g.val → x < 744 → segOwner t x = segOwner s x) ∧
    (ownsHedge s conn h = false ∨ segAssigned s g = true ∨ segScrubbing s g = true → exec (.segOwnerAssign conn g h) s = .next s) ∧
    (ownsHedge s conn (segHedge s g) = true → segAssigned s g = true →
      ∃ t, exec (.segOwnerRelease conn g) s = .next t ∧ t = { s with fld := t.fld } ∧ segAssigned t g = false ∧ segScrubbing t g = true ∧
        ∀ x, x ≠ g.val → x < 744 → segOwner t x = segOwner s x) ∧
    (segScrubbing s g = true → ∃ t, exec (.segmentFillEnd g) s = .next t ∧ t = { s with fld := t.fld, mem := t.mem, damage := t.damage } ∧ segScrubbing t g = false ∧
      ∀ a, memByte t a = if mereBase + g.val * 2 ^ 30 ≤ a ∧ a < mereBase + (g.val + 1) * 2 ^ 30 then 0 else memByte s a) ∧
    ((getHedge s h).owner = none → (getConn s conn).state = .opened → (getConn s conn).kind = 0 →
      ∃ t, exec (.claim conn h) s = .next t ∧ t = { s with hedges := t.hedges, fld := t.fld } ∧ getHedge t h = { getHedge s h with owner := some conn.val } ∧
        (∀ x, x ≠ h.val → getHedge t x = getHedge s x) ∧ getF t (hdgPage h) Hdg.replayCnt = 0 ∧ getF t (hdgPage h) Hdg.evtDeniedCnt = 0) ∧
    ((getHedge s h).owner.isSome = true → exec (.claim conn h) s = .next s) ∧
    (ownsHedge s conn h = true → (getHedge s h).state = .unbound → s.jobs = [] →
      ∃ t, exec (.release conn h) s = .next t ∧ t = { s with hedges := t.hedges, fld := t.fld, evt := t.evt, sessions := t.sessions, queues := t.queues } ∧
        (∀ p, getQueue t p = if p < 132 ∧ queHedge s p = h.val then { getQueue s p with flights := [], compl := [], held := false, stopped := false, resetting := false }
          else getQueue s p) ∧
        getHedge t h = { getHedge s h with owner := none } ∧ (∀ x, x ≠ h.val → getHedge t x = getHedge s x) ∧ getF t (hdgPage h) Hdg.evtAdmit = 0 ∧
        (∀ p, p < 132 → queHedge s p = h.val → getF t (quePage p) Que.en = 0) ∧ (∀ x, x < 744 → segAssigned t x = true → segHedge t x ≠ h.val) ∧
        ∀ i, tblFind i t.evt = if 128 * h.val ≤ i ∧ i < 128 * h.val + 128 then none else tblFind i s.evt) ∧
    ((getHedge s h).state ≠ .unbound → exec (.release conn h) s = .next s))

/-! ## Transfer Engine (R203, R228, R229) -/

/-- The Transfer Engine's descriptors over undamaged memory whose ranges pass R203: the bytes of their rows are moved, filled or converted, no other byte
changes, and the record counts the bytes written (R213, R228). Each equation holds where no byte is both read and written and none is written twice. A range that fails ends it
with ACCESS and moves nothing; it waits while it touches scratchpads of a FROZEN Hedge (R226) and until sleeping clusters have woken (R146); a pause comes before a 64-byte
granule (R233). -/
def Obligations.Transfers : Prop :=
  ∀ (q : QueueId) (i : Word32) (s : State) (f : Flight), let d := f.desc; let h := queHedge s q; let src := dNat d 0x10 8;
    let rows' := [((fun p b => .copy q ⟨i, p⟩ b, 1) : (Option Word32 → Bool → Instr) × Nat), (fun p b => .gather q ⟨i, p⟩ b, 2), (fun p b => .scatter q ⟨i, p⟩ b, 3), (fun p b => .fill q ⟨i, p⟩ b, 4), (fun p b => .convert q ⟨i, p⟩ b, 5)];
    let cores := rangeCores (teRanges d);
    32 ≤ q.val → q.val < 96 →
    (∀ e ∈ rows', flightAt s q e.2 i.toNat = some f → ∀ p bad,
      (spmFrozen s h (teRanges d) = true → exec (e.1 p bad) s = .next s) ∧
      (∀ a, spmFrozen s h (teRanges d) = false → rangesFail s h (teRanges d) = some a → ∃ t, exec (e.1 p bad) s = .next t ∧
        t = { s with queues := t.queues, banks := t.banks } ∧ Completed q f { status := stAccess, detail := a, nflags := f.nflags } s t) ∧
      (spmFrozen s h (teRanges d) = false → rangesFail s h (teRanges d) = none → anyAsleep s cores = true → exec (e.1 p bad) s = .next (wakeCores cores s))) ∧
    (spmFrozen s h (teRanges d) = false → anyAsleep s cores = false → f.units = 0 → f.bytes = 0 → f.nflags = 0 → Sound s →
    let once := fun (at' : Nat → Nat) (n rows : Nat) => ∀ r u x, r < rows → u < rows → at' r ≤ x → x < at' r + n → at' u ≤ x → x < at' u + n → r = u;
    (let n := dNat d 0x20 4; let rows := dNat d 0x24 4; let from' := fun r => src + r * dNat d 0x28 8; let into := fun r => dNat d 0x18 8 + r * dNat d 0x30 8;
      flightAt s q 1 i.toNat = some f → rangesFail s h (copyRanges d) = none →
      ∃ t, exec (.copy q ⟨i, none⟩ false) s = .next t ∧ movesOnly s t ∧ Completed q f { detail := n * rows } s t ∧
        (∀ x, ¬ inRows into n rows x → memByte t x = memByte s x) ∧
        (once into n rows → (∀ x, inRows into n rows x → ¬ inRows from' n rows x) → ∀ r b, r < rows → b < n → memByte t (into r + b) = memByte s (from' r + b))) ∧
    (let n := dNat d 0x28 4; let rows := dNat d 0x2C 4; let list := dNat d 0x18 8; let idx := fun r => memNat s (list + 4 * r) 4;
      let from' := fun r => src + idx r * dNat d 0x30 8; let into := fun r => dNat d 0x20 8 + r * n;
      flightAt s q 2 i.toNat = some f → rangesFail s h (tableRanges d) = none → (∀ r, r < rows → idx r = 0xFFFFFFFF ∨ idx r < dNat d 0x38 4) →
      (∀ x, inRows into n rows x → ¬ inRows from' n rows x ∧ ¬ (list ≤ x ∧ x < list + 4 * rows)) →
      ∃ t, exec (.gather q ⟨i, none⟩ false) s = .next t ∧ movesOnly s t ∧ Completed q f { detail := n * rows } s t ∧
        (∀ x, ¬ inRows into n rows x → memByte t x = memByte s x) ∧
        ∀ r b, r < rows → b < n → memByte t (into r + b) = if idx r = 0xFFFFFFFF then 0 else memByte s (from' r + b)) ∧
    (let n := dNat d 0x28 4; let rows := dNat d 0x2C 4; let list := dNat d 0x18 8; let idx := fun r => memNat s (list + 4 * r) 4;
      let from' := fun r => dNat d 0x20 8 + r * n; let into := fun r => src + idx r * dNat d 0x30 8;
      flightAt s q 3 i.toNat = some f → rangesFail s h (tableRanges d) = none → (∀ r, r < rows → idx r < dNat d 0x38 4 ∧ idx r ≠ 0xFFFFFFFF) →
      (∀ x, inRows into n rows x → ¬ inRows from' n rows x ∧ ¬ (list ≤ x ∧ x < list + 4 * rows)) → once into n rows →
      (dNat d 0x3C 1 = 0 → ∃ t, exec (.scatter q ⟨i, none⟩ false) s = .next t ∧ movesOnly s t ∧ Completed q f { detail := n * rows } s t ∧
        (∀ x, ¬ inRows into n rows x → memByte t x = memByte s x) ∧ ∀ r b, r < rows → b < n → memByte t (into r + b) = memByte s (from' r + b)) ∧
      (∀ g, dNat d 0x3C 1 ≠ 0 → fmtOf (dNat d 0x3D 1) = some g → n % fmtBytes g = 0 → ∃ t nf, exec (.scatter q ⟨i, none⟩ false) s = .next t ∧ movesOnly s t ∧
        Completed q f { detail := n * rows, nflags := nf } s t ∧ (∀ x, ¬ inRows into n rows x → memByte t x = memByte s x) ∧
        ∀ r e, r < rows → (e + 1) * fmtBytes g ≤ n → memNat t (into r + e * fmtBytes g) (fmtBytes g) =
          (addElem g (memNat s (into r + e * fmtBytes g) (fmtBytes g)) (memNat s (from' r + e * fmtBytes g) (fmtBytes g))).1 % 2 ^ (8 * fmtBytes g))) ∧
    (let n := dNat d 0x18 8; flightAt s q 4 i.toNat = some f → rangesFail s h [(src, n)] = none →
      ∃ t, exec (.fill q ⟨i, none⟩ false) s = .next t ∧ movesOnly s t ∧ Completed q f { detail := n } s t ∧
        ∀ x, memByte t x = if src ≤ x ∧ x < src + n then patByte (dNat d 0x20 8) (x - src) else memByte s x) ∧
    (let n := dNat d 0x18 8; let parts := granules src n; flightAt s q 4 i.toNat = some f → rangesFail s h [(src, n)] = none →
      ∀ p : Word32, p.toNat < parts.length → let z := skipBytes parts p.toNat; ∃ t, exec (.fill q ⟨i, (some p)⟩ false) s = .next t ∧ movesOnly s t ∧
        getQueue t q = { getQueue s q with flights := (getQueue s q).flights.map (fun x => if x.index = f.index then { f with units := p.toNat, bytes := z } else x) } ∧
        ∀ x, memByte t x = if src ≤ x ∧ x < src + z then patByte (dNat d 0x20 8) (x - src) else memByte s x) ∧
    (let rows := dNat d 0x20 4; let cols := dNat d 0x24 4; let a := (convFmts d).1; let b := (convFmts d).2; let fl := dNat d 0x32 1;
      let from' := fun r c => src + r * dNat d 0x28 4 + c * fmtBytes a;
      let into := fun r c => if fl.testBit 0 then dNat d 0x18 8 + c * dNat d 0x2C 4 + r * fmtBytes b else dNat d 0x18 8 + r * dNat d 0x2C 4 + c * fmtBytes b;
      let writes := fun x => ∃ r c, r < rows ∧ c < cols ∧ into r c ≤ x ∧ x < into r c + fmtBytes b;
      flightAt s q 5 i.toNat = some f → rangesFail s h (convertRanges d) = none → (∀ x r c, writes x → r < rows → c < cols → ¬ (from' r c ≤ x ∧ x < from' r c + fmtBytes a)) →
      (∀ r c r' c', r < rows → c < cols → r' < rows → c' < cols → (r, c) ≠ (r', c') → into r c + fmtBytes b ≤ into r' c' ∨ into r' c' + fmtBytes b ≤ into r c) →
      ∃ t nf, exec (.convert q ⟨i, none⟩ false) s = .next t ∧ movesOnly s t ∧ Completed q f { detail := rows * cols * fmtBytes b, nflags := nf } s t ∧
        (∀ x, ¬ writes x → memByte t x = memByte s x) ∧
        ∀ r c, r < rows → c < cols → memNat t (into r c) (fmtBytes b) = (convertElem a b (fl.testBit 1) (memNat s (from' r c) (fmtBytes a))).1 % 2 ^ (8 * fmtBytes b)))

/-! ## Collectives (R293 to R321) -/

/-- A descriptor of the Network Engine that passes its checks, is the oldest of its sequence that is no job yet, and reads no scratchpad that is frozen or asleep takes the next
sequence number and becomes a job with its plan, which waits for its peers. With one rank
alone it completes at once, with DST the values of SRC through TFMT and rounded to EFMT (R294, R296, R300 to R304, R306, R308). -/
def Obligations.CollectiveStarts : Prop :=
  ∀ (q : QueueId) (s : State) (f : Flight) (e : (QueueId → Bool → Instr) × Nat), e ∈ collOps →
    let op := e.2; let d := f.desc; let c := dNat d 0x28 2; let n := commSize s c; let r := commRank s c; let peer := dNat d 0x2A 2; let count := jCount d;
    let alg := resolveAlg op (dNat d 0x2F 1) (jTfmt d) count n; let key := (2 * c + (op - 6)) * 2048 + peer; let kb := if (dNat d 0x32 2).testBit 0 then 8 else 4;
    let seq := if op < 6 then tblGet 0 s.cseq c else tblGet 0 s.p2pSeq key;
    96 ≤ q.val → q.val < 128 → jobDue s q op = some f → (op < 6 → ∀ j ∈ s.jobs, j.comm = c → 6 ≤ j.op) → neCommBad s q d = none →
    ((getQueue s q).flights.takeWhile (fun x => x.index != f.index)).any (fun x => jobless s q x && sameSeq d x.desc) = false →
    spmFrozen s (queHedge s q) (neReads d n r) = false → anyAsleep s (rangeCores (neReads d n r)) = false →
    getF s nePage Ne.broken c ≠ 1 → rangesFail s (queHedge s q) (neRanges s d c n r) = none → Sound s → (∀ y ∈ s.readys, y.1 ≠ c) →
    (jRop d = 0 ∨ dNat d 0x30 8 = 0 ∧ r ≠ 0xFFFFFFFF ∨ dNat d 0x30 8 ≠ 0 ∧ ∀ i, i < count → memNat s (dNat d 0x30 8 + 4 * i) 4 ≠ 0xFFFFFFFF) →
    (op = 5 → (dNat d 0x32 2).testBit 1 = true → rising ((List.range (n - 1)).map (fun i => memNat s (dNat d 0x38 8 + i * kb) kb)) = true) →
    (0 < count → (op < 6 → 1 < n) → (∀ x ∈ planOf op alg n r peer, x.kind ≠ .seal → (peerConn s c x.peer).isSome = true) →
      (op = 5 → ∀ p, p < n → p ≠ r → (peerConn s c p).isSome = true) →
      ∃ t j, exec (e.1 q false) s = .next t ∧
        netOnly { s with jobs := t.jobs, cseq := t.cseq, p2pSeq := t.p2pSeq, chans := t.chans, clus := t.clus, wakeReqs := t.wakeReqs } t ∧ t.jobs = s.jobs ++ [j] ∧
        (j.queue, j.index, j.comm, j.op, j.alg, j.seq) = (q.val, f.index, c, op, alg, seq) ∧ (j.size, j.rank, j.peer) = (n, r, peer) ∧
        j.plan.map (fun x => (x.kind, x.step, x.peer, x.lo, x.hi)) = (planOf op alg n r peer).map (fun x => (x.kind, x.step, x.peer, x.lo, x.hi)) ∧
        (∀ k, tblGet 0 t.cseq k = if op < 6 ∧ k = c then (seq + 1) % 2 ^ 32 else tblGet 0 s.cseq k) ∧
        (∀ k, tblGet 0 t.p2pSeq k = if 6 ≤ op ∧ k = key then (seq + 1) % 2 ^ 32 else tblGet 0 s.p2pSeq k)) ∧
    (op ≤ 4 → n = 1 → r = 0 → jRop d = 0 → efmtOk (jEfmt d) = true → tfmtOk (jTfmt d) = true → spmFrozen s (queHedge s q) (neWrites d n r) = false →
      anyAsleep s (rangeCores (neWrites d n r)) = false →
      (getQueue s q).flights.find? (fun x => x.index == f.index) = some f →
      let w := eBytes (jEfmt d); let dst := dNat d 0x18 8; let vals := readElems d 0 (memList s (dNat d 0x10 8) (count * w)) [] count;
      ∃ t nf, exec (e.1 q false) s = .next t ∧ movesOnly { s with cseq := t.cseq } t ∧ Completed q f { nflags := nf } s t ∧
        (∀ x, x < dst ∨ dst + count * w ≤ x → memByte t x = memByte s x) ∧
        ∀ g ∈ chunkSegs 0 count (segMax (jTfmt d) false (jumboOn s)), memList t (dst + g.1 * w) (g.2 * w) =
          (decodeSeg (jTfmt d) false g.2 (makeSeg d ((vals.drop g.1).take g.2)).1.data).flatMap (fun v => (toEfmt (jEfmt d) v.1).1))

/-- Segments of a collective: DATA that passes both checks is reduced or kept; the first failure asks for a RESEND and the second ends the collective with SUSPECT;
CONFIRM, READY, COUNTS and RESEND act on the job they name, ABORT and the timeout end it with PEER and break the communicator, and a segment that names no
job is dropped, DATA, COUNTS, RESEND and CONFIRM counted in NE_UNMATCHED (R302, R305, R306, R311 to R314, R317). -/
def Obligations.CollectiveMessages : Prop :=
  ∀ (k : ConnId) (s u : State) (b : List Byte),
    let cnt := fun (f : Field) (t : State) => getF t nePage f = (getF s nePage f + 1) % 2 ^ 32;
    let ends := fun (i : Instr) (j : Job) (v : State) (info detail : Nat) => ∃ t, exec i s = .next t ∧ jobsOnly { v with queues := t.queues } t ∧
      t.jobs = s.jobs.filter (fun x => !sameJob j x) ∧ getF t nePage Ne.broken j.comm = 1 ∧
      ∀ f, (getQueue s j.queue).flights.find? (fun x => x.index == j.index) = some f →
        Completed j.queue f { status := stPeer, info := info, detail := detail, nflags := j.nflags } s t;
    let named := fun (c : Nat) (j : Job) => segComm u k b = some c ∧ segJob u c b = some j;
    let lost := segComm u k b = none ∨ ∃ c, segComm u k b = some c ∧ segJob u c b = none;
    (∀ e ∈ [((.collData, 0) : (ConnId → Instr) × Nat), (.confirm, 2), (.resend, 3), (.counts, 5)], takeSeg k e.2 s = some (b, u) → lost →
      ∃ t, exec (e.1 k) s = .next t ∧ t = { u with fld := t.fld } ∧ cnt Ne.unmatched t) ∧
    (takeSeg k 4 s = some (b, u) → lost → exec (.abort k) s = .next u) ∧
    (∀ c, takeSeg k 1 s = some (b, u) → segComm u k b = some c → segJob u c b = none →
      exec (.collReady k) s = .next { u with readys := s.readys ++ [(c, cSrc b, cSeq b, cOpc b % 16)] }) ∧
    (∀ c j, takeSeg k 1 s = some (b, u) → named c j → let j' := { j with ready := if cSrc b ∈ j.ready then j.ready else j.ready ++ [cSrc b], last := s.now };
      stalled j' → ∃ t, exec (.collReady k) s = .next t ∧ t = { u with jobs := t.jobs } ∧ jobBecomes j j' s t) ∧
    (∀ c j, takeSeg k 4 s = some (b, u) → named c j → ends (.abort k) j u piAborted (cSrc b + cAttempt b * 2 ^ 16)) ∧
    (∀ c j, takeSeg k 2 s = some (b, u) → named c j → j.op ≠ 5 →
      let j' := { j with last := s.now, plan := j.plan.map (fun x => if !isRecv x && x.kind != .seal && x.peer == cSrc b && x.step == cStep b
        then { x with conf := true, copy := [] } else x) };
      stalled j' → ∃ t, exec (.confirm k) s = .next t ∧ t = { u with jobs := t.jobs } ∧ jobBecomes j j' s t) ∧
    (∀ c j i x, takeSeg k 3 s = some (b, u) → named c j → j.op ≠ 5 → Sound u →
      j.plan.findIdx? (fun x => !isRecv x && x.kind != .seal && x.peer == cSrc b && x.step == cStep b && x.fin) = some i → j.plan[i]? = some x →
      (fromSrc j i x = true ∨ x.kind = .send ∨ (tblFind (cOff b) j.segs).isSome = true) →
      ∃ t nf, exec (.resend k) s = .next t ∧ jobsOnly { u with chans := t.chans } t ∧ jobBecomes j { j with last := s.now, nflags := nf } s t ∧ cnt Ne.segTx t ∧
        (fromSrc j i x = false → nf = j.nflags ∧ t.chans = u.chans)) ∧
    (∀ c j, takeSeg k 5 s = some (b, u) → named c j → j.op = 5 →
      let j' := { j with last := s.now, counts := tblInsert (cSrc b) (cOff b) (j.counts.filter (fun e => e.1 != cSrc b)) };
      (∀ r ∈ recvFrom j, r ∈ j.told) → (∀ r ∈ j.ready, r ∈ j.sentTo) → shuffleDone j' = false → (cOff b = 0 ∨ (recsFrom j (cSrc b)).length ≠ cOff b) →
      ∃ t, exec (.counts k) s = .next t ∧ t = { u with jobs := t.jobs } ∧ jobBecomes j j' s t) ∧
    (∀ (q : QueueId) (i : Word32) j, s.jobs.find? (fun j => j.queue == q.val && j.index == i.toNat) = some j →
      (j.last + getF s nePage Ne.timeoutMs * msEdges ≤ s.now → ends (.collTimeout q i) j s piTimeout (awaited j)) ∧
      (s.now < j.last + getF s nePage Ne.timeoutMs * msEdges → exec (.collTimeout q i) s = .next s)) ∧
    (∀ c j, takeSeg k 0 s = some (b, u) → named c j →
      let d := jobDesc u j; let differs := cOpc b ≠ (if j.op = 7 then 6 else jobOpc d j) ∨ cTfmt b ≠ jTfmt d ∨ cDcount b ≠ jCount d;
      let check := segCheck d b; let sums := if check = 1 then Ne.crcMm else Ne.sumMm;
      (differs → ends (.collData k) j u piMismatch (cSrc b)) ∧
      (¬ differs → (check = 1 ∨ check = 2) → cAttempt b = 0 → ∃ t, exec (.collData k) s = .next t ∧ jobsOnly u t ∧ jobBecomes j { j with last := s.now } s t ∧
        cnt Ne.resendCnt t ∧ cnt sums t ∧ (getF t nePage Hdr.err).testBit Ne.eDigestMismatch = true) ∧
      (¬ differs → (check = 1 ∨ check = 2) → cAttempt b ≠ 0 → ends (.collData k) j u piSuspect (cSrc b + (if check = 1 then 0 else 1) * 2 ^ 12)) ∧
      (∀ i x, ¬ differs → check = 0 → j.op ≠ 5 → j.plan[i]? = some x → cOff b ∉ x.got →
        j.plan.findIdx? (fun x => isRecv x && x.peer == cSrc b && x.step == cStep b && !x.fin) = some i →
        let got := x.got ++ [cOff b]; let plan := j.plan.set i { x with got := got, fin := decide ((rangeSegs u j x.lo x.hi).length ≤ got.length) };
        let new := decodeSeg (jTfmt d) (jRop d != 0) (cNelem b) (cData b);
        stalled { j with plan := plan } →
        ∃ t j', exec (.collData k) s = .next t ∧ jobsOnly u t ∧ jobBecomes j j' s t ∧ cnt Ne.segRx t ∧ j'.plan = plan ∧ j'.last = s.now ∧
          j' = { j with plan := j'.plan, last := j'.last, vals := j'.vals, segs := j'.segs, nflags := j'.nflags } ∧
          (∀ o, o < cOff b ∨ cOff b + cNelem b ≤ o → tblGet (0, 0) j'.vals o = tblGet (0, 0) j.vals o) ∧
          ∀ o, o < cNelem b → (x.kind = .store → tblGet (0, 0) j'.vals (cOff b + o) = new.getD o (0, 0)) ∧
            (x.kind = .reduce → jRop d = 0 → tblGet (0, 0) j'.vals (cOff b + o) =
              ((daAdd (new.getD o (0, 0)).1 (tblGet (0, 0) j.vals (cOff b + o)).1).1, 0))))

/-! ## Mere (R240 to R266) -/

/-- Granule requests, the patrol, training, the zero fill, refresh, temperature, the idle modes and the retrainings. A request reads or writes its granule's bytes and no other; a
single-bit error is corrected and counted, an uncorrectable block is poisoned; no retraining touches stored data (R244 to R259, R262). -/
def Obligations.MereChannels : Prop :=
  (∀ (g : Nat) (s : State), let a := mereBase + 32 * g; let b := a / 64 * 64; let ch := chanOf s a;
    a < mereEnd s → activeChans s ≠ [] → (mcState s ch = mcActive ∨ mcState s ch = mcRetraining) → tblGet 0 s.damage b = 0 →
    (∀ h : Fin 32, s.filled = true → ∃ t, exec (.mereRequest g (.read h) .good) s = .next t ∧
      t = { s with chans := t.chans, banks := t.banks, fld := t.fld, evtDue := t.evtDue, outbox := s.outbox ++ [.granule a (memList s a 32) true] } ∧
      b ∈ (getChan t ch).buf ∧ (getChan t ch).powerDown = false ∧ getF t (mcPage ch) Mc.sref = 0) ∧
    (∀ h : Fin 32, s.filled = true → b ∉ (getChan s ch).buf → ∃ t, exec (.mereRequest g (.read h) .single) s = .next t ∧ t.mem = s.mem ∧ tblGet 0 t.damage b = 0 ∧
      t.outbox = s.outbox ++ [.granule a (memList s a 32) true] ∧ getF t (mcPage ch) Mc.ceCnt = (getF s (mcPage ch) Mc.ceCnt + 1) % 2 ^ 32) ∧
    (∀ h : Fin 32, s.filled = true → b ∉ (getChan s ch).buf → ∃ t, exec (.mereRequest g (.read h) .double) s = .next t ∧ t.mem = s.mem ∧ tblGet 0 t.damage b = 3 ∧
      t.outbox = s.outbox ++ [.granule a (memList s a 32) false] ∧ getF t (mcPage ch) Mc.ucCnt = (getF s (mcPage ch) Mc.ucCnt + 1) % 2 ^ 32 ∧
      (getF t (mcPage ch) Hdr.err).testBit Mc.eDataUc = true) ∧
    (∀ (h : Fin 32) (fault : BlockFault), s.filled = false → exec (.mereRequest g (.read h) fault) s = .next s) ∧
    (∀ (off : Fin 32) (bytes : List Byte), let bs := bytes.take (32 - off.val); ∃ t, exec (.mereRequest g (.write off bytes) .good) s = .next t ∧
      t = { s with mem := t.mem, damage := t.damage, chans := t.chans, banks := t.banks, fld := t.fld, evtDue := t.evtDue } ∧ (∀ e ∈ t.damage, e ∈ s.damage) ∧
      ∀ x, memByte t x = if a + off.val ≤ x ∧ x < a + off.val + bs.length then bs.getD (x - (a + off.val)) 0 else memByte s x)) ∧
  (∀ (g : Nat) (bytes : List Byte) (s : State), let a := mereBase + 32 * g; let b := a / 64 * 64; let ch := chanOf s a;
    a < mereEnd s → activeChans s ≠ [] → (mcState s ch = mcActive ∨ mcState s ch = mcRetraining) → bytes.length = 32 →
    ∃ t, exec (.mereRequest g (.write 0 bytes) .good) s = .next t ∧
      (∀ x, memByte t x = if a ≤ x ∧ x < a + 32 then bytes.getD (x - a) 0 else memByte s x) ∧
      (partnerHalf s (getChan s ch) a = false → t.damage = s.damage ∧ (a, s.now) ∈ (getChan t ch).halves ∧ getF t (mcPage ch) Mc.ceCnt = getF s (mcPage ch) Mc.ceCnt ∧
        getF t (mcPage ch) Mc.ucCnt = getF s (mcPage ch) Mc.ucCnt) ∧
      (partnerHalf s (getChan s ch) a = true → tblGet 0 t.damage b = 0 ∧ ∀ e ∈ (getChan t ch).halves, e.1 / 64 ≠ b / 64)) ∧
  (∀ (ch : ChanId) (s : State), let k := getChan s ch; let pg := mcPage ch; let pos := getF s pg Mc.patrolPos; let b := patrolAddr s ch pos;
    mcState s ch = mcActive → getF s pg Mc.patrolEn ≠ 0 → s.filled = true → k.patrolAt + 100 ≤ s.now → tblGet 0 s.damage b = 0 →
    (∃ t, exec (.merePatrol ch .good) s = .next t ∧ t = { s with chans := t.chans, banks := t.banks, fld := t.fld, evtDue := t.evtDue } ∧
      getF t pg Mc.patrolPos = (pos + 1) % chanBlocks) ∧
    (∃ t, exec (.merePatrol ch .double) s = .next t ∧ t.mem = s.mem ∧ tblGet 0 t.damage b = 3 ∧ getF t pg Mc.patrolPos = (pos + 1) % chanBlocks ∧
      (getF t pg Hdr.err).testBit Mc.ePatrolUc = true)) ∧
  (∀ (ch : ChanId) (s : State), let k := getChan s ch; inStage s 8 = true → mcState s ch = mcTraining → chanLogged s ch = false →
    (k.stage < 6 → exec (.trainingStage ch true) s = .next (putChan ch { k with stage := k.stage + 1 } s)) ∧
    (6 ≤ k.stage → ∃ t, exec (.trainingStage ch true) s = .next t ∧ t = { s with chans := t.chans, fld := t.fld } ∧ mcState t ch = mcActive ∧
      ∀ c, c < 192 → (c ∈ activeChans t ↔ c = ch.val ∨ c ∈ activeChans s)) ∧
    (k.tries + 1 ≠ 3 → ∃ t, exec (.trainingStage ch false) s = .next t ∧ t = { s with chans := t.chans, fld := t.fld, evtDue := t.evtDue } ∧ mcState t ch = mcTraining ∧
      getChan t ch = { k with stage := 1, tries := k.tries + 1 } ∧ (getF t (mcPage ch) Hdr.err).testBit Mc.eTrainFail = true) ∧
    (k.tries + 1 = 3 → ∃ t, exec (.trainingStage ch false) s = .next t ∧ t.mem = s.mem ∧ mcState t ch = mcRetired ∧
      (∀ c, c < 192 → (c ∈ activeChans t ↔ c ≠ ch.val ∧ c ∈ activeChans s)) ∧
      getF t segPage Seg.count = segCountOf ((List.range 192).filter (fun i => mcState t i != mcRetired)).length)) ∧
  (∀ s : State, bootGo 8 s = true → trained s = true → ((List.range 192).filter (fun i => mcState s i == mcRetired)).length ≤ 16 →
    ∃ t, exec .mereZeroFill s = .next t ∧
      t = { s with mem := t.mem, damage := t.damage, filled := true, fld := t.fld, boot := t.boot, freeCtr := t.freeCtr, jbuf := t.jbuf, jover := t.jover,
                   evtDue := t.evtDue } ∧
      (∀ e ∈ t.damage, e ∈ s.damage ∧ (e.1 < mereBase ∨ mereBase + 2 ^ 40 ≤ e.1)) ∧ bootStage t = 9 ∧
      ∀ x, memByte t x = if mereBase ≤ x ∧ x < mereBase + 2 ^ 40 then 0 else memByte s x) ∧
  (∀ (ch : ChanId) (hot : Bool) (s : State), mcState s ch ≠ mcRetired → ∃ t, exec (.refresh ch hot) s = .next t ∧
    t = { s with banks := t.banks, fld := t.fld, evtDue := t.evtDue } ∧ getF t (mcPage ch) Mc.derate = if hot then 1 else 0) ∧
  (∀ (pkg : Fin 48) (temp : Fin 256) (s : State), ∃ t, exec (.tempReport pkg temp) s = .next t ∧
    t = { s with fld := t.fld, freeCtr := t.freeCtr, jbuf := t.jbuf, jover := t.jover, evtDue := t.evtDue } ∧
    ∀ i, i < 4 → mcState s (4 * pkg + i) ≠ mcRetired → getF t (mcPage (4 * pkg + i)) Mc.temp = temp ∧
      getF t (mcPage (4 * pkg + i)) Mc.tempHigh = if 95 ≤ temp.val then 1 else 0) ∧
  (∀ (ch : ChanId) (s : State), let k := getChan s ch; mcState s ch = mcActive →
    (getF s (mcPage ch) Mc.sref ≠ 1 → k.last + 1000 ≤ s.now → ∃ t, exec (.powerDownEntry ch) s = .next t ∧
      t = { s with chans := t.chans, banks := t.banks, fld := t.fld, evtDue := t.evtDue } ∧ getChan t ch = { k with powerDown := true }) ∧
    (s.now < k.last + 1000 → exec (.powerDownEntry ch) s = .next s) ∧
    (k.last + 100000 ≤ s.now → ∃ t, exec (.selfRefreshEntry ch) s = .next t ∧
      t = { s with chans := t.chans, banks := t.banks, fld := t.fld, evtDue := t.evtDue } ∧ getChan t ch = { k with powerDown := false } ∧
      getF t (mcPage ch) Mc.sref = 1) ∧
    (s.now < k.last + 100000 → exec (.selfRefreshEntry ch) s = .next s) ∧
    (retrainWanted s ch = true → getF s (mcPage ch) Mc.sref ≠ 1 → ∃ t, exec (.retrainDue ch) s = .next t ∧ t = { s with fld := t.fld } ∧
      getF t (mcPage ch) Mc.due = 1 ∧ fldSame (onlyFields (mcPage ch) [(Mc.due, 0)]) s t) ∧
    (retrainWanted s ch = false → exec (.retrainDue ch) s = .next s)) ∧
  (∀ (ch : ChanId) (pass : Bool) (hold : Fin 801) (s : State), let k := getChan s ch; let pg := mcPage ch;
    let only := fun t : State => t = { s with chans := t.chans, banks := t.banks, fld := t.fld, evtDue := t.evtDue, mcLast := t.mcLast };
    (nextGrant s (ch / 16) = some ch.val → ∃ t, exec (.retrainWindow ch pass hold) s = .next t ∧ only t ∧ mcState t ch = mcRetraining ∧
      (getChan t ch).windows = 1 ∧ tblGet 15 t.mcLast (ch / 16) = ch % 16) ∧
    (mcState s ch = mcRetraining → k.winEnd + 5000 ≤ s.now → k.windows < 2 → ∃ t, exec (.retrainWindow ch pass hold) s = .next t ∧ only t ∧
      mcState t ch = mcRetraining ∧ getChan t ch = { k with windows := k.windows + 1, winFailed := k.winFailed || !pass, winEnd := s.now }) ∧
    (mcState s ch = mcRetraining → k.winEnd + 5000 ≤ s.now → k.windows = 2 → ∃ t, exec (.retrainWindow ch pass hold) s = .next t ∧ only t ∧
      mcState t ch = mcActive ∧
      (pass = true → k.winFailed = false → (getChan t ch).retrainAt = s.now ∧ getF t pg Mc.fails = 0 ∧ getF t pg Mc.due = (if k.again then 1 else 0) ∧
        getF t pg Mc.retrainCnt = (getF s pg Mc.retrainCnt + 1) % 2 ^ 32) ∧
      (pass = false ∨ k.winFailed = true → getF t pg Mc.due = 1 ∧ getF t pg Mc.fails = min (getF s pg Mc.fails + 1) 3 ∧
        (getF t pg Hdr.err).testBit Mc.eTrainFail = true))) ∧
  (∀ (ch : ChanId) (hold : Fin 50001) (s : State), let pg := mcPage ch; mcState s ch = mcActive → 3 ≤ getF s pg Mc.fails →
    (∃ t, exec (.fullRetrain ch none hold) s = .next t ∧ t = { s with chans := t.chans, banks := t.banks, fld := t.fld, evtDue := t.evtDue } ∧
      mcState t ch = mcActive ∧ getF t pg Mc.fails = 0 ∧ getF t pg Mc.due = 0 ∧ (getChan t ch).retrainAt = s.now) ∧
    (∀ st : Fin 5, ∃ t, exec (.fullRetrain ch (some st) hold) s = .next t ∧ t.mem = s.mem ∧ t.chans = s.chans ∧ mcState t ch = mcFailed ∧
      getF t pg Mc.failStage = st.val + 2 ∧ (getF t pg Hdr.err).testBit Mc.eFailed = true ∧ t.notices = s.notices ++ [.fatal 1]))

/-! ## Ports and Rasis (R267 to R292) -/

/-- Ports: a received frame is taken or dropped and counted by the first check it fails, a packet in sequence reaches its connection's messages; own addresses are
answered; a pause holds the priorities it names; an interface goes down by each cause of R273 and returns (R268, R269, R270, R273, R274, R276, R278, R279, R286, R287). -/
def Obligations.Ports : Prop :=
  ∀ (n : IfcId) (s : State), let p := ethPage (n.val / 2); let k := getIfc s n; let other := 2 * (n.val / 2) + (1 - n.val % 2);
    let frames := fun t : State => t = { s with fld := t.fld, banks := t.banks, evtDue := t.evtDue, ifcs := t.ifcs, macKeys := t.macKeys };
    let codewords := fun (f : Frame) (t : State) => getF t p Eth.fecUcCnt = (getF s p Eth.fecUcCnt + f.fecUc) % 2 ^ 32 ∧
      getIfc t n = { k with fecs := (getIfc t n).fecs, fecBad := (getIfc t n).fecBad } ∧ (k.fecBad = true ∨ 17 ≤ f.fecUc → (getIfc t n).fecBad = true) ∧
      (k.fecBad = false → k.fecs.length + f.fecUc ≤ 16 → (getIfc t n).fecBad = false);
    (∀ f : Frame,
      (k.state < ifHold → exec (.frameReceive n f) s = .next s) ∧
      (ifHold ≤ k.state → f.pause = none → f.parity = true → ∃ t, exec (.frameReceive n f) s = .next t ∧ codewords f t ∧ t.conns = s.conns ∧ t.syns = s.syns ∧
        t.outbox = s.outbox ∧ t.mem = s.mem ∧ (getF t p Hdr.err).testBit Eth.ePathParity = true) ∧
      (∀ (prios : Fin 256) (quanta : Word16), ifHold ≤ k.state → f.parity = false → f.fcs = false → f.pause = some (prios, quanta) → getF s p Eth.pfcEn ≠ 0 →
        prios.val &&& getF s p Eth.pfcPrio ≠ 0 → (protect n s).1 = true → ∃ t, exec (.frameReceive n f) s = .next t ∧ codewords f t ∧ t.conns = s.conns ∧ t.syns = s.syns ∧
          t.outbox = s.outbox ++ [.pause n (prios.val &&& getF s p Eth.pfcPrio) quanta.toNat]) ∧
      (ifHold ≤ k.state → f.parity = false → f.pause = none →
        (f.fcs = false → ∃ t, exec (.frameReceive n f) s = .next t ∧ frames t ∧ codewords f t ∧ getF t p Eth.fcsErrCnt = (getF s p Eth.fcsErrCnt + 1) % 2 ^ 32) ∧
        (f.fcs = true → secOk s n f = false → getF s p Eth.macsecEn = 1 → ∃ t, exec (.frameReceive n f) s = .next t ∧ frames t ∧ codewords f t ∧ t.macKeys = s.macKeys ∧
          getF t p Eth.macsecDropCnt = (getF s p Eth.macsecDropCnt + 1) % 2 ^ 32 ∧ (getF t p Hdr.err).testBit Eth.eMacsecDrop = true) ∧
        (f.fcs = true → secOk s n f = true → (planeOf s n f = none ∨ addressed s n f = false) →
          ∃ t, exec (.frameReceive n f) s = .next t ∧ frames t ∧ codewords f t ∧ getF t (ifcPage n) Ifc.rxDropCnt = (getF s (ifcPage n) Ifc.rxDropCnt + 1) % 2 ^ 32) ∧
        (f.fcs = true → secOk s n f = true → (planeOf s n f).isSome = true → addressed s n f = true → wireFormed f.bytes = false →
          ∃ t, exec (.frameReceive n f) s = .next t ∧ frames t ∧ codewords f t ∧ getF t rasPage Ras.dropCnt = (getF s rasPage Ras.dropCnt + 1) % 2 ^ 32) ∧
        (∀ mgmt, let w := parseWire f.bytes; let c := getConn s w.dst;
          f.fcs = true → secOk s n f = true → planeOf s n f = some mgmt → addressed s n f = true → wireFormed f.bytes = true →
          (wrongVlan s mgmt w = true → ∃ t, exec (.frameReceive n f) s = .next t ∧ frames t ∧ codewords f t ∧
            getF t (ifcPage n) Ifc.rxDropCnt = (getF s (ifcPage n) Ifc.rxDropCnt + 1) % 2 ^ 32) ∧
          (w.dst = 0xFFFF → wrongVlan s mgmt w = false → ∃ t, exec (.frameReceive n f) s = .next t ∧ frames { t with syns := s.syns } ∧ codewords f t ∧
            t.syns = s.syns ++ [(f.saddr.toNat, { w with path := n })]) ∧
          (w.dst ≠ 0xFFFF → w.type ≠ tNull → mgmt = (w.type == tMgmt) → c.state = .opened → wrongKind c.kind w.type = false → (w.type = tColl → cKind w.body ≤ 5) →
            w.psn = c.rxPsn → c.early = [] →
            ∃ t, exec (.frameReceive n f) s = .next t ∧ netOnly { s with ifcs := t.ifcs } t ∧ codewords f t ∧
              (getConn t w.dst).inbox = c.inbox ++ [{ w with path := n }] ∧ (getConn t w.dst).rxPsn = (w.psn + 1) % 2 ^ 32 ∧ ∀ x, x ≠ w.dst → getConn t x = getConn s x)))) ∧
    (∀ (vid : Fin 4096) (i : Instr) (a : Nat), (∃ x : Word32, i = .arpRequest n vid x ∧ a = 0xFFFF * 2 ^ 32 + x.toNat) ∨
        (∃ x : BitVec 128, i = .neighbourSolicitation n vid x ∧ a = x.toNat ∧ x.toNat / 2 ^ 32 ≠ 0xFFFF) →
      let own := vid.val ≠ 0 ∧ (vid.val = getF s (ifcPage n) Ifc.dataVid ∧ a = ifcAddr s n Ifc.dataAddr ∨
        vid.val = getF s (ifcPage n) Ifc.mgmtVid ∧ a = ifcAddr s n Ifc.mgmtAddr);
      (own → ifHold ≤ k.state → (protect n s).1 = true → ∃ t, exec i s = .next t ∧ netOnly s t ∧ t.conns = s.conns ∧
        t.outbox = s.outbox ++ [.ownAddress n (nextHopMac s n) vid a]) ∧
      (¬ own ∨ k.state < ifHold ∨ (protect n s).1 = false → exec i s = .next s)) ∧
    (∀ (prios : Fin 256) (quanta : Word16), ifHold ≤ k.state → getF s p Eth.pfcEn ≠ 0 →
      (quanta ≠ 0 → ∃ t, exec (.pauseFrame n prios quanta) s = .next t ∧ frames t ∧
        ∀ q, q < 8 → tblGet 0 (getIfc t n).paused q = if prios.val.testBit q = true ∧ (getF s p Eth.pfcPrio).testBit q = true then s.now + pauseEdges s n quanta.toNat
          else tblGet 0 k.paused q) ∧
      (quanta = 0 → ∃ t, exec (.pauseFrame n prios quanta) s = .next t ∧ netOnly { s with ifcs := t.ifcs } t ∧
        ∀ q, q < 8 → prios.val.testBit q = true → (getF s p Eth.pfcPrio).testBit q = true → pausedNow t n q = false)) ∧
    (∀ (prios : Fin 256) (quanta : Word16), getF s p Eth.pfcEn = 0 → exec (.pauseFrame n prios quanta) s = .next s) ∧
    (∀ cause : LinkCause, ifHold ≤ k.state → (cause = .fec → k.fecBad = true) → (cause = .macsec → macsecSpent s n = true) →
      ∃ t, exec (.linkDown n cause) s = .next t ∧ netOnly { s with ifcs := t.ifcs, notices := s.notices ++ [.link n false] } t ∧
        (getIfc t n).state = (if ifcPresent s n then ifTraining else ifDown) ∧ (getIfc t n).since = s.now ∧ (getIfc t n).paused = [] ∧
        getF t p Eth.flapCnt = (getF s p Eth.flapCnt + 1) % 2 ^ 32 ∧ (getF t p Hdr.err).testBit Eth.eLinkDown = true ∧
        (cause = .fec → (getF t p Hdr.err).testBit Eth.eFecDegrade = true) ∧ (cause = .localFault → getF t p Eth.localFault = 1) ∧
        (cause = .remoteFault → getF t p Eth.remoteFault = 1) ∧ (∀ c, (getPath (getConn t c) n).inUse = false) ∧ ∀ i, i ≠ n.val → getIfc t i = getIfc s i) ∧
    (∀ cause : LinkCause, k.state < ifHold → (cause ≠ .localFault ∧ cause ≠ .remoteFault ∨ k.state = ifDown) → exec (.linkDown n cause) s = .next s) ∧
    (k.state = ifTraining → (∃ t, exec (.linkDown n .localFault) s = .next t ∧ t = { s with ifcs := t.ifcs, fld := t.fld } ∧ getIfc t n = { k with localFault := true } ∧
        getF t p Eth.localFault = 1) ∧
      (∃ t, exec (.linkDown n .remoteFault) s = .next t ∧ t = { s with ifcs := t.ifcs, fld := t.fld } ∧ getIfc t n = { k with remoteFault := true } ∧
        getF t p Eth.remoteFault = 1)) ∧
    (k.state = ifTraining → ifcPresent s n = true → ∃ t, exec (.linkUp n) s = .next t ∧
      t = { s with ifcs := t.ifcs, fld := t.fld, notices := s.notices ++ [.link n true] } ∧
      getIfc t n = { k with state := ifHold, since := s.now, localFault := false, remoteFault := false, anDone := getF s p Eth.anEn == 1 } ∧
      getF t p Eth.localFault = b2n (getIfc s other).localFault ∧ getF t p Eth.remoteFault = b2n (getIfc s other).remoteFault) ∧
    (k.state ≠ ifTraining → exec (.linkUp n) s = .next s) ∧
    (ifHold ≤ k.state → k.since + 10000000 ≤ s.now → ∃ t, exec (.pathReturn n) s = .next t ∧ netOnly { s with ifcs := t.ifcs } t ∧
      getIfc t n = { k with state := ifUp } ∧ ∀ c, (getPath (getConn s c) n).answered = true →
        (getPath (getConn t c) n).inUse = true ∧ (getPath (getConn t c) n).suspect = false) ∧
    (s.now < k.since + 10000000 → exec (.pathReturn n) s = .next s)

/-- Connections: a SYN opens one on the lowest free number or is refused; its answer opens the device's own; a FIN and the dead time close one; acknowledgements end what
they cover; probes, delayed acknowledgements, retransmissions and keepalives at their times (R278 to R281, R284, R290). -/
def Obligations.Connections : Prop :=
  (∀ (a : Nat) (w : Wire) (rest : List (Nat × Wire)) (s : State), s.syns = (a, w) :: rest → let u := { s with syns := rest };
    (w.dst = 0xFFFF → sameSyn s w = none → ∀ k, admitted s a = true → freeConn s = some k →
      ∃ t psn, exec .rasSyn s = .next t ∧ netOnly u t ∧ (∀ x, x ≠ k → getConn t x = getConn s x) ∧ (getConn t k).state = .opening ∧
        (getConn t k).kind = bNat w.body 1 1 ∧ (getConn t k).peer = w.src ∧ (getConn t k).addrs = synAddrs w.body ∧ (getConn t k).synPsn = w.psn ∧
        (getConn t k).rxPsn = (w.psn + 1) % 2 ^ 32 ∧ (getConn t k).txPsn = (psn + 1) % 2 ^ 32) ∧
    (w.dst = 0xFFFF → ∀ k, sameSyn s w = some k → ∃ t, exec .rasSyn s = .next t ∧ netOnly u t ∧ (∀ x, x ≠ k → getConn t x = getConn s x) ∧
      getConn t k = { getConn s k with unacked := (getConn t k).unacked, retx := (getConn t k).retx } ∧
      (getConn t k).unacked.map (fun x => x.wire.psn) = (getConn s k).unacked.map (fun x => x.wire.psn)) ∧
    (w.dst = 0xFFFF → sameSyn s w = none → (admitted s a = false ∨ freeConn s = none) → ∃ t, exec .rasSyn s = .next t ∧ netOnly u t ∧ t.conns = s.conns) ∧
    (w.dst ≠ 0xFFFF → awaitsSyn (getConn s w.dst) = true → (getConn s w.dst).kind ≠ 1 ∨ s.jobs = [] →
      ∃ t, exec .rasSyn s = .next t ∧ netOnly u t ∧ (getConn t w.dst).state = .opened ∧ (getConn t w.dst).peer = w.src ∧
        (getConn t w.dst).addrs = synAddrs w.body ∧ (getConn t w.dst).rxPsn = (w.psn + 1) % 2 ^ 32) ∧
    (w.dst ≠ 0xFFFF → awaitsSyn (getConn s w.dst) = false → exec .rasSyn s = .next u)) ∧
  (∀ s : State, s.syns = [] → exec .rasSyn s = .next s) ∧
  (∀ (k : ConnId) (s : State), let c := getConn s k;
    let closes := fun (i : Instr) => ∃ t, exec i s = .next t ∧ (getConn t k).state = .free ∧ (c.begun = false → t.mem = s.mem) ∧
      getF t rasPage Ras.closeCnt = (getF s rasPage Ras.closeCnt + 1) % 2 ^ 32 ∧ (∀ x, x < 32 → (getHedge t x).owner ≠ some k.val) ∧
      (c.kind = 2 → tblFind (4 + k.val) t.sessions = none) ∧
      (∀ w rest, c.begun = true → c.inbox = w :: rest → w.type = tMemWr → Sound s → let a := bNat w.body 0 8; let n := bNat w.body 8 4;
        a + n ≤ mereBase → w.body.length = 16 + n → ∀ x, memByte t x = if a ≤ x ∧ x < a + n then w.body.getD (16 + (x - a)) 0 else memByte s x);
    s.jobs = [] → (c.kind = 0 → ∀ x, x < 32 → tblFind x s.shifts = none ∧ inGrid (getHedge s x)) → (∀ x, x < 32 → c.kind ≠ 0 → (getHedge s x).owner ≠ some k.val) → c.state ≠ .free →
    (c.fin.isSome = true → closes (.rasFin k)) ∧
    (c.fin = none → (∃ w rest, c.inbox = w :: rest ∧ w.type = tNull) → closes (.rasFin k)) ∧
    (c.fin = none → (∀ w rest, c.inbox = w :: rest → w.type ≠ tNull) → exec (.rasFin k) s = .next s) ∧
    (c.state = .closing → (∃ a rest, c.acks = a :: rest ∧ ∃ x ∈ c.unacked, covers a x.wire.psn = true ∧ (x.wire.flags / fFin) % 2 = 1) → closes (.rasAck k)) ∧
    (∀ since, since = (if c.unacked.isEmpty then c.lastRx else c.advanced) + getF s rasPage Ras.deadMs * 100000 →
      (since ≤ s.now → closes (.deadMs k)) ∧
      (s.now < since → (peerUnused s k c = false ∨ s.now < c.usedAt + getF s rasPage Ras.deadMs * 100000) → exec (.deadMs k) s = .next s) ∧
      (s.now < since → peerUnused s k c = true → c.usedAt + getF s rasPage Ras.deadMs * 100000 ≤ s.now → ∃ t, exec (.deadMs k) s = .next t ∧ netOnly s t ∧
        (getConn t k).state = .closing ∧ ∃ w : Wire, (w ∈ (getConn t k).txq ∨ ∃ x ∈ (getConn t k).unacked, x.wire = w) ∧ w.type = tNull ∧ w.flags = fFin))) ∧
  (∀ (k : ConnId) (s : State), let c := getConn s k;
    (∀ a rest, c.acks = a :: rest → (c.kind ≠ 1 ∨ s.jobs = []) → let acked := c.unacked.filter (fun x => covers a x.wire.psn);
      (c.state = .closing → ∀ x ∈ acked, (x.wire.flags / fFin) % 2 ≠ 1) → ∃ t, exec (.rasAck k) s = .next t ∧ netOnly s t ∧ (getConn t k).acks = rest ∧
      (c.unacked.filter (fun x => !covers a x.wire.psn)).map (fun x => x.wire.psn) <+: (getConn t k).unacked.map (fun x => x.wire.psn) ∧
      ((getConn t k).state = if c.state = .opening ∧ (acked.any (fun x => x.wire.flags % 2 == 1)) = true then .opened else c.state) ∧
      ∀ i, i < 4 → let p := getPath c i; let p' := getPath (getConn t k) i; let n := (acked.filter (fun x => x.path == i)).length;
        (n ≠ 0 → let grows := if p.window ≤ p.grown + n then min 64 (p.window + 1) else p.window;
          p'.window = (if a.ece = true ∧ a.path = i then max 4 (grows / 2) else grows) ∧ p'.timeouts = 0) ∧
        ((∃ x ∈ acked, x.path = i ∧ x.resent = false) → ∃ m v, p'.trip = some (m, v) ∧ p'.rto = min 160000 (max 5000 (m + 4 * v)))) ∧
    (c.acks = [] → exec (.rasAck k) s = .next s) ∧
    (∀ i rest, c.probes = i :: rest → ∃ t, exec (.rasProbe k) s = .next t ∧ netOnly s t ∧ getConn t k = { c with probes := rest } ∧
      (ifHold ≤ (getIfc s i).state → pausedNow s i (pcpOf s i tNull) = false → getF s (ethPage (i / 2)) Eth.macsecEn = 0 →
        ∃ en, t.outbox = s.outbox ++ [.packet i (nextHopMac s i) (pathAddr c i) (vidOf s i c.kind) (pcpOf s i tNull) 2 en { ackWire k c fProbe with path := i }])) ∧
    (c.owed ≠ 0 → c.owedAt + 200 ≤ s.now → (nullPath s c).isSome = true → ∃ t, exec (.ackTimer k) s = .next t ∧ netOnly s t ∧ getConn t k = { c with owed := 0 }) ∧
    (c.owed = 0 ∨ s.now < c.owedAt + 200 → exec (.ackTimer k) s = .next s) ∧
    (∀ i : IfcId, let p := getPath c i; let due := c.unacked.filter (fun x => x.path == i.val && !x.held && decide (x.at_ + p.rto ≤ s.now));
      let p' : Path := { p with rto := min 160000 (2 * p.rto), timeouts := p.timeouts + 1, suspect := p.suspect || decide (2 ≤ p.timeouts + 1),
                                window := max 4 (p.window / 2), grown := 0 };
      (due ≠ [] → ∃ t, exec (.retransmitTimeout k i) s = .next t ∧ netOnly s t ∧ getPath (getConn t k) i = p' ∧
        (∀ x ∈ due, ∀ y ∈ (getConn t k).unacked, y.wire.psn = x.wire.psn → y.held = true ∨ y.at_ = s.now) ∧
        ((∃ j, j < 4 ∧ ∀ x ∈ due, pathTakes s (putPath i p' c) x.wire j = true) →
          ∀ x ∈ due, ∀ y ∈ (getConn t k).unacked, y.wire.psn = x.wire.psn → y.held = false ∧ y.at_ = s.now ∧ y.resent = true ∧ pathLive s (putPath i p' c) y.path = true)) ∧
      (due = [] → exec (.retransmitTimeout k i) s = .next s) ∧
      (c.state = .opened → ifHold ≤ (getIfc s i).state → (p.suspect = true ∨ p.inUse = false ∧ p.answered = false) → (p.probeAt = 0 ∨ p.probeAt + 100000 ≤ s.now) →
        ∃ t, exec (.suspectProbe k i) s = .next t ∧ netOnly s t ∧ getConn t k = putPath i { p with probeAt := s.now } c) ∧
      (p.suspect = false → p.inUse = true → exec (.suspectProbe k i) s = .next s)) ∧
    (let due := c.probed + getF s rasPage Ras.keepaliveMs * 100000;
      (c.state = .opened → c.unacked = [] → due ≤ s.now → (nullPath s c).isSome = true → ∃ t, exec (.keepalive k) s = .next t ∧ netOnly s t ∧
        getConn t k = { c with probed := s.now }) ∧
      (c.state ≠ .opened ∨ c.unacked ≠ [] ∨ s.now < due → exec (.keepalive k) s = .next s)))

/-- Requests of a host connection: each is answered with a COMPLETION of its MSG; REG_RD returns words, REG_WR writes them, MEM_RD and MEM_WR move the bytes of a range
that R155 and R203 allow, DOORBELL moves a TAIL; a range refused changes nothing; MGMT and REQUEST bring Privet a block; EVENTs go to those R283 names (R198, R282, R283,
R458, R466, R503, R512, R514, R516, R517). -/
def Obligations.HostRequests : Prop :=
  (∀ (k : ConnId) (w : Wire) (s u : State), let a := bNat w.body 0 8; let n := bNat w.body 8 4;
    ((getConn s k).kind ≠ 0 → ∀ e ∈ [((.regRd, tRegRd) : (ConnId → Instr) × Nat), (.regWr, tRegWr), (.memRd, tMemRd), (.memWr, tMemWr), (.doorbell, tDoorbell)],
      takeRequestOf k e.2 s = some (w, u) → ∃ t, exec (e.1 k) s = .next t ∧ netOnly u t ∧ answers k w rsMalformed [] u t) ∧
    let waits := fun (i : Instr) => ∃ t, exec i s = .next t ∧ t = { s with conns := t.conns, wakeReqs := t.wakeReqs } ∧ getConn t k = { getConn s k with begun := true } ∧
      ∀ x, x ≠ k.val → getConn t x = getConn s x;
    ((getConn s k).kind = 0 →
      (takeRequestOf k tRegRd s = some (w, u) →
        (∀ pg, regRange u a n false = (rsOk, some pg) → mayRead u k pg = true → (readWaits pg u).1 = true → waits (.regRd k)) ∧
        (∀ pg, regRange u a n false = (rsOk, some pg) → mayRead u k pg = true → (readWaits pg u).1 = false →
          ∃ t data, exec (.regRd k) s = .next t ∧ netOnly { u with evtLatch := t.evtLatch } t ∧ answers k w rsOk data u t ∧ data.length = 4 * n ∧
            data.take 4 = leBytes 4 (pageWord (fun h => ownsHedge u k h) u pg (a % 0x1000))) ∧
        (∀ pg, regRange u a n false = (rsOk, some pg) → mayRead u k pg = false →
          ∃ t, exec (.regRd k) s = .next t ∧ netOnly u t ∧ answers k w rsAccess [] u t) ∧
        (∀ st, regRange u a n false = (st, none) → ∃ t, exec (.regRd k) s = .next t ∧ netOnly u t ∧ answers k w st [] u t)) ∧
      (takeRequestOf k tRegWr s = some (w, u) → w.body.length = 16 + 4 * n →
        (∀ pg c, regRange u a 1 true = (rsOk, some pg) → n = 1 → a % 0x1000 = 0x10 → pageCore pg = some c → (pageLock u pg).1 = 0 → mayWriteCore u k c = true →
          ∃ t, exec (.regWr k) s = .next t ∧ netOnly u t ∧ answers k w rsOk [] u t ∧
            getF t pg.base Hdr.isr = clearBits (getF u pg.base Hdr.isr) (bNat w.body 16 4) % 2 ^ 16) ∧
        (∀ pg c, regRange u a n true = (rsOk, some pg) → pageCore pg = some c → (pageLock u pg).1 ≠ 0 ∨ mayWriteCore u k c = false →
          ∃ t, exec (.regWr k) s = .next t ∧ netOnly u t ∧ answers k w rsAccess [] u t) ∧
        (∀ st, regRange u a n true = (st, none) → ∃ t, exec (.regWr k) s = .next t ∧ netOnly u t ∧ answers k w st [] u t)) ∧
      (takeRequestOf k tRegWr s = some (w, u) → w.body.length ≠ 16 + 4 * n → ∃ t, exec (.regWr k) s = .next t ∧ netOnly u t ∧ answers k w rsMalformed [] u t) ∧
      (takeRequestOf k tMemRd s = some (w, u) → memForm u w a n = true →
        (memRight u k false a n = 2 → waits (.memRd k)) ∧
        (memRight u k false a n = 0 → a < mereBase → (∃ e ∈ damageIn u a n, e.2 ≠ 1) → ∃ t, exec (.memRd k) s = .next t ∧ answers k w rsDataUc [] u t)) ∧
      (takeRequestOf k tMemRd s = some (w, u) → Sound u →
        (memForm u w a n = true → memRight u k false a n = 0 → ∃ t, exec (.memRd k) s = .next t ∧ netOnly { u with chans := t.chans } t ∧
          answers k w rsOk (memList s a n) u t) ∧
        (memForm u w a n = true → memRight u k false a n = 1 → ∃ t, exec (.memRd k) s = .next t ∧ netOnly u t ∧ answers k w rsAccess [] u t) ∧
        (memForm u w a n = false → ∃ t, exec (.memRd k) s = .next t ∧ netOnly u t ∧ answers k w rsMalformed [] u t)) ∧
      (takeRequestOf k tMemWr s = some (w, u) → Sound u → memForm u w a n = true → w.body.length = 16 + n →
        (memRight u k true a n = 0 → ∃ t, exec (.memWr k) s = .next t ∧ netOnly { u with mem := t.mem, chans := t.chans } t ∧ answers k w rsOk [] u t ∧
          ∀ x, memByte t x = if a ≤ x ∧ x < a + n then w.body.getD (16 + (x - a)) 0 else memByte s x) ∧
        (memRight u k true a n = 2 → waits (.memWr k)) ∧
        (memRight u k true a n = 1 → ∃ t, exec (.memWr k) s = .next t ∧ netOnly u t ∧ answers k w rsAccess [] u t)) ∧
      (takeRequestOf k tMemWr s = some (w, u) → (memForm u w a n = false ∨ w.body.length ≠ 16 + n) →
        ∃ t, exec (.memWr k) s = .next t ∧ netOnly u t ∧ answers k w rsMalformed [] u t) ∧
      (takeRequestOf k tDoorbell s = some (w, u) →
        (∀ q : QueueId, deviceReady u = true → doorbellQueue (bNat w.body 0 1) (bNat w.body 1 1) = some q.val → (pageLock u (pgQue q)).1 = 0 →
          ownsHedge u k (queHedge u q) = true → let tail := bNat w.body 4 4; let c := getQueue u q; let ring := 2 ^ getF u (quePage q) Que.ringLog2;
          ringDist (getF u (quePage q) Que.head) tail ≤ ring → ringDist c.tail tail ≤ ring →
          ∃ t, exec (.doorbell k) s = .next t ∧ netOnly { u with queues := t.queues } t ∧ answers k w rsOk [] u t ∧ getQueue t q = { c with tail := tail } ∧
            ∀ p, p ≠ q.val → getQueue t p = getQueue u p) ∧
        (deviceReady u = true → doorbellQueue (bNat w.body 0 1) (bNat w.body 1 1) = none → ∃ t, exec (.doorbell k) s = .next t ∧ netOnly u t ∧ answers k w rsNoTarget [] u t) ∧
        (deviceReady u = false → ∃ t, exec (.doorbell k) s = .next t ∧ netOnly u t ∧ answers k w rsAccess [] u t)))) ∧
  (∀ (k : ConnId) (w : Wire) (rest : List Wire) (s : State) (i : Instr) (src : Fin 4100), src.val = 4 + k.val → (i = .mgmt k ∨ ∃ parity, i = .request ⟨src, parity⟩) →
    let b := w.body.drop 32; let total := bNat w.body 8 4; let r : PReq := ⟨4 + k.val, bNat w.body 4 4, b.take total⟩;
    privetUp s = true → (getConn s k).inbox = w :: rest → w.type = tMgmt → (getConn s k).kind = 2 → bNat w.body 0 1 = mkRequest → 32 ≤ w.body.length →
    tblFind k s.frags = none → bNat w.body 0xC 4 = 0 → let u := putConn k { getConn s k with inbox := rest } s;
    (b.length < total → ∃ t, exec i s = .next t ∧ t = { u with frags := t.frags } ∧ tblFind k t.frags = some ⟨r.ident, total, b⟩) ∧
    (total ≤ b.length → rqFormed r.block = true → cmdClass (rqCmd r.block) = some (rqClass r.block) → payloadFormed (rqCmd r.block) (rqPayload r.block) = true →
      ∃ t, exec i s = .next t ∧ t = { u with frags := t.frags, preqs := s.preqs ++ [r] })) ∧
  (∀ (src : Fin 4100) (s : State) (f : Flight), let q := 128 + src.val; let h := queHedge s q; let a := dNat f.desc 0x10 8; let n := dNat f.desc 0x18 4;
    let b := memList s a n; src.val < 4 → privetUp s = true → startedOp s q 1 = some f → (∀ r ∈ s.preqs, r.src ≠ src.val ∨ r.ident ≠ f.index) →
    (∀ u, s.busy = some u → u.req.src ≠ src.val ∨ u.req.ident ≠ f.index) →
    inSegments s h a n = true → inSegments s h (dNat f.desc 0x20 8) (dNat f.desc 0x28 4) = true → Sound s → rqFormed b = true →
    cmdClass (rqCmd b) = some (rqClass b) → payloadFormed (rqCmd b) (rqPayload b) = true →
    (∃ t, exec (.request ⟨src, false⟩) s = .next t ∧ t = { s with chans := t.chans, banks := t.banks, fld := t.fld, evtDue := t.evtDue, preqs := s.preqs ++ [⟨src, f.index, b⟩] }) ∧
    ∃ t e, exec (.request ⟨src, true⟩) s = .next t ∧ t.preqs = s.preqs ∧ t.mem = s.mem ∧ e.status = stDataUc ∧ Completed q f e s t) ∧
  (∀ (s : State),
    let dev := fun (n : Notice) (rest : List Notice) (body : List Byte) => s.notices = n :: rest →
      ∃ t, exec (.eventSend true) s = .next t ∧ netOnly { s with notices := rest } t ∧ ∀ k ∈ deviceListeners s, sends k tEvent 0 0 body s t;
    (∀ i up rest, dev (.link i up) rest (eventBody 3 i (ethPage (i / 2)) (pageRecord s (ethPage (i / 2))))) ∧
    (∀ cause rest, s.notices = .fatal cause :: rest → ∃ t source, exec (.eventSend true) s = .next t ∧ netOnly { s with notices := rest } t ∧
      ∀ k ∈ deviceListeners s, sends k tEvent 0 0 (eventBody 4 source errPage (pageRecord s errPage)) s t) ∧
    (∀ h q r k rest, s.notices = .completion h q r :: rest → (getHedge s h).owner = some k → ∃ t, exec (.eventSend true) s = .next t ∧
      netOnly { s with notices := rest } t ∧ sends k tEvent 0 0 (eventBody 0 (queInst q) (quePage q) r) s t) ∧
    (∀ b rest pg h k, s.evtDue = b :: rest → getF s b Hdr.evtHold ≠ 1 → eventPage s b = some pg → pg.ty ≠ .scratchpad → pg.ty ≠ .counterBank → pg.ty ≠ .router →
      pageHedge s pg = some h → (getHedge s h).owner = some k → ∃ t, exec (.eventSend false) s = .next t ∧ netOnly s t ∧ (∃ more, t.evtDue = rest ++ more) ∧
      sends k tEvent 0 0 (eventBody 2 pg.inst b (pageRecord s b)) s t) ∧
    (∀ b rest, s.evtDue = b :: rest → getF s b Hdr.evtHold = 1 → exec (.eventSend false) s = .next { s with evtDue := rest }) ∧
    (s.notices = [] → exec (.eventSend true) s = .next s) ∧ (s.evtDue = [] → exec (.eventSend false) s = .next s))

/-! ## Power (R322 to R346, R443, R444) -/

/-- Bars, bulk cells and the rail: the state and voltage of a bar, ONE_BAR and the cap it brings, force-minimum by a bar's overcurrent or a low rail, a cell that isolates
itself, the loss of both bars and of Privet's supply (R322 to R326, R346, R362, R371, R388, R443, R444). -/
def Obligations.PowerInput : Prop :=
  (∀ (b : Fin 2) (st : BarState) (dv : Fin 1024) (s : State),
    let others := fun t : State => ∀ o : Fin 2, o ≠ b → barState t o = barState s o;
    let shows := fun t : State => getF t pctPage Pct.oneBar = (if barsGood t = 1 then 1 else 0) ∧ getF t pctPage Pct.cap = capNow t;
    (barState s b = 0 → s.pwr.privetOn = true →
      (barShows st dv = true → ∃ t, exec (.barLost b st dv) s = .next t ∧ t = { s with fld := t.fld, evtDue := t.evtDue, jbuf := t.jbuf, jover := t.jover } ∧ others t ∧
        shows t ∧ barState t b = barCode st ∧ (getF t inpPage Hdr.err).testBit Inp.eBarLost = true ∧ (st = .overvolt → (getF t inpPage Hdr.err).testBit Inp.eBarOver = true) ∧
        (st = .reversed → (getF t inpPage Hdr.err).testBit Inp.eBarReversed = true)) ∧
      (400 < dv.val → dv.val ≤ 420 → ∃ t, exec (.barExcursion b dv) s = .next t ∧ t = { s with fld := t.fld, evtDue := t.evtDue, jbuf := t.jbuf, jover := t.jover } ∧
        others t ∧ barState t b = 0 ∧ (getF t inpPage Hdr.err).testBit Inp.eBarOver = true) ∧
      (barsGood s = 1 → getF s pctPage Pct.forced ≠ 1 → ∃ t, exec (.barOvercurrent b) s = .next t ∧ t = { s with fld := t.fld, pwr := t.pwr } ∧ Forced s t)) ∧
    (barShows st dv = false → exec (.barLost b st dv) s = .next s) ∧
    (barState s b ≠ 0 → barShows st dv = true → ∃ t, exec (.barLost b st dv) s = .next t ∧ t = { s with fld := t.fld, evtDue := t.evtDue } ∧ others t ∧
      barState t b = barCode st ∧ (s.pwr.privetOn = true → st = .overvolt → barState s b ≠ 2 → (getF t inpPage Hdr.err).testBit Inp.eBarOver = true)) ∧
    (barState s b = 0 → s.pwr.privetOn = false → barShows st dv = true → ∃ t, exec (.barLost b st dv) s = .next t ∧ t = { s with fld := t.fld } ∧ others t ∧
      barState t b = barCode st) ∧
    (barState s b ≠ 0 → exec (.barExcursion b dv) s = .next s ∧ exec (.barOvercurrent b) s = .next s) ∧
    (barState s b ≠ 0 → s.pwr.privetOn = true → 300 ≤ dv.val → dv.val ≤ 400 →
      (s.pwr.failing = false → ∃ t, exec (.barGood b dv) s = .next t ∧ t = { s with fld := t.fld } ∧ others t ∧ shows t ∧ barState t b = 0) ∧
      (s.pwr.failing = true → ∃ u, u = { s with fld := u.fld, pwr := { s.pwr with failing := false } } ∧ others u ∧ barState u b = 0 ∧
        exec (.barGood b dv) s = .next (deviceReset 3 u))) ∧
    (barState s b = 0 ∨ dv.val < 300 ∨ 400 < dv.val → exec (.barGood b dv) s = .next s) ∧
    (barState s b ≠ 0 → (barState s b = 3 ↔ barCode st ≠ 3) → barShows st dv = true →
      ∃ t, exec (.barReversed b st dv) s = .next t ∧ t = { s with fld := t.fld, evtDue := t.evtDue } ∧ others t ∧ barState t b = barCode st ∧
        (s.pwr.privetOn = true → barCode st = 3 → (getF t inpPage Hdr.err).testBit Inp.eBarReversed = true)) ∧
    (barState s b = 0 ∨ barShows st dv = false → exec (.barReversed b st dv) s = .next s)) ∧
  (∀ (mv : Fin 4096) (s : State), getF s inpPage Inp.bulkEn ≠ 0 →
    (mv.val < 1700 → getF s pctPage Pct.forced ≠ 1 → ∀ deep : Bool, deep = false ∨ 1600 ≤ mv.val →
      ∃ t, exec (.railLow mv deep) s = .next t ∧ t = { s with fld := t.fld, pwr := t.pwr, evtDue := t.evtDue } ∧ Forced s t ∧ getF t inpPage Inp.rail = mv ∧
        (getF t inpPage Hdr.err).testBit Inp.eRailLow = true) ∧
    (mv.val < 1600 → ∃ t, exec (.railLow mv true) s = .next t ∧ t.mem = [] ∧ t.cores = [] ∧ t.conns = [] ∧ t.flash = s.flash ∧ t.fuses = s.fuses ∧ t.dlog = s.dlog ∧
      t.pwr.pwrGood = false ∧ getF t inpPage Inp.bulkEn = 0 ∧ getF t errPage Err.fatalCause = 3) ∧
    (1700 ≤ mv.val → ∀ deep, exec (.railLow mv deep) s = .next s)) ∧
  (∀ (c : Fin 72) (s : State), let left := getF s inpPage Inp.good - 1;
    (cellOk s c = true → ∃ t, exec (.cellFault c) s = .next t ∧
      t = { s with fld := t.fld, evtDue := t.evtDue, ceAgg := t.ceAgg, jbuf := t.jbuf, jover := t.jover, freeCtr := t.freeCtr, dlog := t.dlog, deadCells := t.deadCells } ∧
      c.val ∈ t.deadCells ∧ (∀ i, i < 72 → cellOk t i = (cellOk s i && decide (i ≠ c.val))) ∧ getF t inpPage Inp.good = left % 128 ∧
      (s.dlog.length < 4096 → ∃ cause, t.dlog = s.dlog ++ [⟨4, cause, 0xFF, c, s.bootNo, s.powerOn⟩]) ∧
      (left < 68 → getF t pctPage Pct.cellsLow = 1 ∧ getF t pctPage Pct.cap = capNow t ∧ (getF t inpPage Hdr.err).testBit Inp.eCellsLow = true)) ∧
    (cellOk s c = false → exec (.cellFault c) s = .next s)) ∧
  (∀ s : State, let going := s.pwr.failing = false ∧ s.pwr.privetOn = true;
    (barsGood s = 0 → going → ∃ t, exec .powerFail s = .next t ∧ t.mem = [] ∧ t.cores = [] ∧ t.conns = [] ∧ t.dlog = s.dlog ∧ t.fuses = s.fuses ∧
      t.pwr.failing = true ∧ t.pwr.pwrGood = false ∧ t.jbuf = [] ∧
      (s.jbuf.length < 512 → ∃ r, t.flash.journal.getLast? = some r ∧ r.cls = jEvent ∧ r.blkType = pageCode pgInp.ty ∧ r.code = Inp.ePowerFail)) ∧
    (barsGood s ≠ 0 ∨ s.pwr.failing = true → exec .powerFail s = .next s) ∧
    (s.pwr.failing = true → barsGood s = 0 → ∃ t, exec .privetPowerDown s = .next t ∧ t.pwr.privetOn = false ∧ t.mem = [] ∧ t.cores = [] ∧ t.conns = [] ∧
      t.sessions = [] ∧ t.fuses = s.fuses ∧ t.flash = dropUpdate s ∧ t.dlog = s.dlog ∧ t.powerOn = s.powerOn ∧ t.now = s.now) ∧
    (s.pwr.failing = false ∨ barsGood s ≠ 0 → exec .privetPowerDown s = .next s))

/-- Springs: a failed phase, a trip, a forecast and its end, phases shed, the wakes and their windows, PGOOD and the impedance estimate (R327 to R337). -/
def Obligations.Springs : Prop :=
  (∀ (cl : ClusterId) (s : State), (∀ e ∈ s.pinned, e.2 < 4608) →
    (∀ ph : Fin 12, let pg := sprPage cl; let n := getF s pg Spr.healthy - 1;
      sprUp s cl = true → (getF s pg Spr.phaseOk).testBit ph = true →
        (10 ≤ n → ∃ t, exec (.phaseFault cl ph) s = .next t ∧
          t = { s with fld := t.fld, evtDue := t.evtDue, clus := t.clus, ceAgg := t.ceAgg, jbuf := t.jbuf, jover := t.jover } ∧ sprState t cl = sprState s cl ∧
          (getF t pg Spr.phaseOk).testBit ph = false ∧ getF t pg Spr.healthy = n % 16 ∧ getF t pg Spr.hwlim = getF s pg Spr.hwlim ∧
          (getF t pg Hdr.err).testBit Spr.ePhaseFault = true) ∧
        (3 ≤ n → n < 10 → ∃ t, exec (.phaseFault cl ph) s = .next t ∧ t = { s with fld := t.fld, evtDue := t.evtDue, clus := t.clus } ∧
          sprState t cl = sprState s cl ∧ (getF t pg Spr.phaseOk).testBit ph = false ∧ getF t pg Spr.healthy = n ∧ getF t pg Spr.hwlim = 8 * n ∧
          getF t pg Spr.efflim = min (getF s pg Spr.limit) (min (8 * n) (getClus s cl).impCap) ∧ (getF t pg Hdr.err).testBit Spr.ePhaseLimit = true) ∧
        (n ≤ 2 → ∃ t, exec (.phaseFault cl ph) s = .next t ∧ Trips cl 5 s t)) ∧
    (∀ cause : TripCause, (sprUp s cl = true → ∃ t, exec (.springTrip cl cause) s = .next t ∧ Trips cl (tripCode cause) s t) ∧
      (sprUp s cl = false → exec (.springTrip cl cause) s = .next s))) ∧
  (∀ (cl : ClusterId) (ph : Fin 12) (s : State), sprUp s cl = false ∨ (getF s (sprPage cl) Spr.phaseOk).testBit ph = false → exec (.phaseFault cl ph) s = .next s) ∧
  (∀ (cl : ClusterId) (s : State), let pg := sprPage cl; let c := getClus s cl;
    (∀ h r, hedgeOfPlot s (plotOfCluster cl) = some h → (getHedge s h).run = some r → r.armed = true → clusterGone s cl = false →
      ∃ t, exec (.forecast cl) s = .next t ∧ t = { s with fld := t.fld, clus := t.clus, hedges := t.hedges } ∧
        getHedge t h = { getHedge s h with run := some { r with told := cl.val :: r.told.filter (fun x => x != cl.val), toldAt := s.now } } ∧
        (∀ x, x ≠ h → getHedge t x = getHedge s x) ∧ getF t pg Spr.forecast = r.forecast % 8 ∧ fldSame (onlyFields pg [(Spr.forecast, 0)]) s t ∧
        (sprState s cl = sprActive →
          getClus t cl = { c with phases := min (getF s pg Spr.healthy) (2 + (10 * (r.forecast % 8 + 1) + 7) / 8), fcWaits := false, fcAt := s.now }) ∧
        (sprState s cl ≠ sprActive → getClus t cl = { c with fcWaits := true }) ∧ ∀ x, x ≠ cl.val → getClus t x = getClus s x) ∧
    (hedgeOfPlot s (plotOfCluster cl) = none ∨ clusterGone s cl = true ∨
      (∀ h, hedgeOfPlot s (plotOfCluster cl) = some h → ∀ r, (getHedge s h).run = some r → r.armed = false) → exec (.forecast cl) s = .next s) ∧
    (getF s pg Spr.ffActive = 1 → c.fcAt + 2000 ≤ s.now → ∃ t, exec (.forecastEnd cl) s = .next t ∧ t = { s with fld := t.fld } ∧
      getF t pg Spr.ffActive = 0 ∧ getF t pg Spr.vtgt = getF s pg Spr.vcode % 128 ∧ fldSame (onlyFields pg [(Spr.ffActive, 0), (Spr.vtgt, 0)]) s t) ∧
    (getF s pg Spr.ffActive ≠ 1 ∨ s.now < c.fcAt + 2000 → exec (.forecastEnd cl) s = .next s) ∧
    (∀ needed : Fin 13, (sprState s cl = sprActive → getF s pg Spr.ffActive = 0 → c.fcAt + 10000 ≤ s.now → ∃ t, exec (.phaseShed cl needed) s = .next t ∧
        t = { s with clus := t.clus } ∧ getClus t cl = { c with phases := min c.phases (max 2 needed.val) } ∧ ∀ k, k ≠ cl.val → getClus t k = getClus s k) ∧
      (sprState s cl ≠ sprActive ∨ s.now < c.fcAt + 10000 → exec (.phaseShed cl needed) s = .next s))) ∧
  (∀ (cl : ClusterId) (s : State), let pg := sprPage cl; let c := getClus s cl;
    (∃ t, exec (.wakeRequest cl) s = .next t ∧ t = { s with clus := t.clus, wakeReqs := t.wakeReqs } ∧ getClus t cl = { c with recalAt := none } ∧
      (∀ k, k ∈ t.wakeReqs ↔ k ∈ s.wakeReqs ∨ k = cl.val ∧ clkState s cl ≠ 0 ∧ clkState s cl ≠ 1)) ∧
    (cl.val ∈ s.wakeReqs → sprState s cl = sprRetention → inWindow s cl = true → mayRamp s cl = true → ∃ t, exec (.wakeWindow cl) s = .next t ∧
      t = { s with fld := t.fld, clus := t.clus, wakeReqs := t.wakeReqs } ∧ sprState t cl = sprRamp ∧ getF t pg Spr.pgood = 0 ∧
      getF t pg Spr.vtgt = wakeCode s cl % 128 ∧ getF t pg Spr.vcode = wakeCode s cl % 128 ∧
      getClus t cl = { c with rampAt := some s.now, standby := true, lockTry := 0, clkAt := s.now } ∧ (∀ k, k ∈ t.wakeReqs ↔ k ∈ s.wakeReqs ∧ k ≠ cl.val) ∧
      fldSame (onlyFields pg [(Spr.state, 0), (Spr.pgood, 0), (Spr.vtgt, 0), (Spr.vcode, 0)]) s t) ∧
    (cl.val ∉ s.wakeReqs ∨ sprState s cl ≠ sprRetention ∨ inWindow s cl = false ∨ mayRamp s cl = false → exec (.wakeWindow cl) s = .next s) ∧
    (sprState s cl = sprRamp → ∃ t, exec (.pgood cl) s = .next t ∧ t = { s with fld := t.fld, clus := t.clus } ∧
      sprState t cl = sprActive ∧ getF t pg Spr.pgood = 1 ∧ (c.standby = true → getF t pg Spr.wakeCnt = (getF s pg Spr.wakeCnt + 1) % 2 ^ 32) ∧
      (c.fcWaits = true → getClus t cl = { c with phases := min (getF s pg Spr.healthy) (2 + (10 * (getF s pg Spr.forecast + 1) + 7) / 8), fcWaits := false,
                                                  fcAt := s.now }) ∧ (c.fcWaits = false → t.clus = s.clus)) ∧
    (sprState s cl = sprActive → ∃ t, exec (.pgood cl) s = .next t ∧ t = { s with fld := t.fld } ∧ getF t pg Spr.pgood = 1 ∧
      fldSame (onlyFields pg [(Spr.pgood, 0)]) s t) ∧
    (sprState s cl ≠ sprRamp → sprState s cl ≠ sprActive → exec (.pgood cl) s = .next s)) ∧
  (∀ (cl : ClusterId) (r : Word16) (s : State), let pg := sprPage cl; let c := getClus s cl; let rb := getF s pg Spr.rbase;
    let ests := (r.toNat :: c.ests).take 16; let ratio := min 4095 (median ests * 256 / rb);
    let c' : Cluster := if rb * 14 ≤ r.toNat * 10 then { c with ests := ests, highs := (s.now :: c.highs).take 100 } else { c with ests := ests, highs := [], lowAt := s.now };
    let due := c'.lowAt + 1000000000 ≤ s.now ∧ 100 ≤ (c'.highs.filter (fun t => decide (s.now ≤ t + 1000000000))).length ∧ getF s pg Spr.impWarn = 0;
    (sprState s cl = sprActive → rb ≠ 0 → ∃ t, exec (.impedanceEstimate cl r) s = .next t ∧
      t = { s with fld := t.fld, clus := t.clus, evtDue := t.evtDue, jbuf := t.jbuf, jover := t.jover, planned := t.planned } ∧
      getF t pg Spr.ratio = ratio ∧ getF t pg Spr.rpath = min (median ests) 65535 ∧
      getClus t cl = { c' with impCap := if due then min (getF s pg Spr.hwlim) c.impCap * 3 / 4 else c.impCap } ∧
      (due → getF t pg Spr.impWarn = 1 ∧ (getF t pg Hdr.err).testBit Spr.eImpWarn = true) ∧
      (512 ≤ ratio → getF s pg Spr.impRetire = 0 → getF t pg Spr.impRetire = 1 ∧ (getF t pg Hdr.err).testBit Spr.eImpRetire = true ∧
        ∀ p ∈ clusterSites cl, p ∈ t.holes ∨ ∃ e ∈ t.planned, e.1 = p) ∧ (ratio < 512 → t.planned = s.planned)) ∧
    (sprState s cl ≠ sprActive ∨ rb = 0 → exec (.impedanceEstimate cl r) s = .next s))

/-- The reference and the generators: a lost oscillator, gating, STANDBY, resumption and locks, lock losses, a step change from GO to its switch, and droops (R348 to R362,
R367, R370). -/
def Obligations.Clocks : Prop :=
  (∀ (o : Fin 2) (s : State), let lost := fun (t : State) (i : Nat) => getF t refPage (if i = 0 then Ref.osc0Lost else Ref.osc1Lost);
    (lost s o ≠ 1 → s.pwr.privetOn = true →
      (lost s (1 - o.val) = 1 → ∃ t, exec (.oscillatorLost o) s = .next t ∧
        t = { s with fld := t.fld, evtDue := t.evtDue, jbuf := t.jbuf, jover := t.jover, freeCtr := t.freeCtr, fresh := t.fresh, notices := s.notices ++ [.fatal 2] } ∧
        lost t o = 1 ∧ getF t refPage Ref.source = 2 ∧ getF t errPage Err.fatalCause = 2) ∧
      (lost s (1 - o.val) ≠ 1 → ∃ t, exec (.oscillatorLost o) s = .next t ∧
        t = { s with fld := t.fld, evtDue := t.evtDue, jbuf := t.jbuf, jover := t.jover, freeCtr := t.freeCtr } ∧ lost t o = 1 ∧
        getF t refPage Ref.source = if getF s refPage Ref.source = o.val then 1 - o.val else getF s refPage Ref.source)) ∧
    (lost s o = 1 → exec (.oscillatorLost o) s = .next s)) ∧
  (∀ (cl : ClusterId) (s : State), let c := getClus s cl; let pg := clkPage cl;
    let others := fun t : State => ∀ k, k < 288 → k ≠ cl.val → clkState t k = clkState s k ∧ sprState t k = sprState s k;
    (clkState s cl = 1 → clusterIdle s cl = true → c.busyAt + getF s pg Clk.gateUs * usEdges ≤ s.now → ∃ t, exec (.clockGate cl) s = .next t ∧
      t = { s with fld := t.fld, clus := t.clus, hbQuiet := t.hbQuiet } ∧ clkState t cl = 2 ∧ getClus t cl = { c with clkAt := s.now } ∧
      (∀ p, p ∈ t.hbQuiet ↔ p ∈ s.hbQuiet ∨ p ∈ clusterSites cl) ∧ fldSame (onlyFields pg [(Clk.state, 0)]) s t) ∧
    (clkState s cl ≠ 1 ∨ clusterIdle s cl = false → exec (.clockGate cl) s = .next s) ∧
    (clkState s cl = 2 → clusterIdle s cl = true → sprState s cl = sprActive → c.clkAt + getF s pg Clk.standbyMs * msEdges ≤ s.now →
      ∃ t, exec (.clockStandby cl) s = .next t ∧ t = { s with fld := t.fld, clus := t.clus } ∧ clkState t cl = 3 ∧ getF t pg Clk.locked = 0 ∧
        sprState t cl = sprRetention ∧ getF t (sprPage cl) Spr.vtgt = 0 ∧ (getClus t cl).phases = 2 ∧ getC t cl Cpc.issueL = getC t cl Cpc.ceil ∧
        getC t cl Cpc.ceil = (if getC s cl Cpc.hold = 1 then 1 else if getF s pctPage Pct.forced = 1 then 4 else 16) ∧ others t) ∧
    (clkState s cl ≠ 2 ∨ clusterIdle s cl = false → exec (.clockStandby cl) s = .next s) ∧
    (clkState s cl = 2 → ∃ t, exec (.clockResume cl) s = .next t ∧ t = { s with fld := t.fld, clus := t.clus, wakeReqs := t.wakeReqs } ∧ clkState t cl = 1 ∧
      getClus t cl = { c with recalAt := none, busyAt := s.now } ∧ (∀ k, k ∈ t.wakeReqs ↔ k ∈ s.wakeReqs ∧ k ≠ cl.val) ∧ others t) ∧
    (clkState s cl ≠ 2 → exec (.clockResume cl) s = .next s) ∧
    (locking s cl = true → ∃ t, exec (.clockLock cl) s = .next t ∧ t = { s with fld := t.fld, clus := t.clus, wakeReqs := t.wakeReqs } ∧ clkState t cl = 1 ∧
      getF t pg Clk.locked = 1 ∧ getF t pg Clk.step = stepCode s % 64 ∧ getF t pg Clk.pendingStep = 0 ∧
      getF t pg Clk.wakeCnt = (if clkState s cl = 3 then (getF s pg Clk.wakeCnt + 1) % 2 ^ 32 else getF s pg Clk.wakeCnt) ∧
      getClus t cl = { c with standby := false, relock := false, lockTry := 0, clkAt := s.now, busyAt := s.now } ∧
      (∀ k, k ∈ t.wakeReqs ↔ k ∈ s.wakeReqs ∧ k ≠ cl.val) ∧ others t) ∧
    (locking s cl = false → exec (.clockLock cl) s = .next s ∧ exec (.lockFail cl) s = .next s) ∧
    (locking s cl = true → c.lockTry = 0 → ∃ t, exec (.lockFail cl) s = .next t ∧ t = { s with fld := t.fld, evtDue := t.evtDue, clus := t.clus } ∧
      (getF t pg Hdr.err).testBit Clk.eLockFail = true ∧ getClus t cl = { c with lockTry := 1 } ∧ clkState t cl = clkState s cl) ∧
    (locking s cl = true → 1 ≤ c.lockTry → (∀ e ∈ s.pinned, e.2 < 4608) → ∃ t, exec (.lockFail cl) s = .next t ∧ Trips cl 1 s t) ∧
    (clkState s cl = 1 ∨ clkState s cl = 2 → ∃ t, exec (.lockLost cl) s = .next t ∧ LosesLock cl Clk.eLockLost s t) ∧
    (clkState s cl ≠ 1 → clkState s cl ≠ 2 → exec (.lockLost cl) s = .next s ∧ exec (.switchMiss cl) s = .next s) ∧
    (∀ e, s.pwr.switched = some e → e + 8 ≤ s.now → (clkState s cl = 1 ∨ clkState s cl = 2) → getF s pg Clk.step ≠ stepCode s →
      ∃ t, exec (.switchMiss cl) s = .next t ∧ LosesLock cl Clk.eSwitchMiss s t) ∧
    (getF s pg Clk.step = stepCode s → exec (.switchMiss cl) s = .next s)) ∧
  (∀ (target : Fin 64) (count : Fin 1024) (s : State), let f := target.val; let n := max 32 count.val; let up := stepCode s < f;
    let ready := ∀ cl ∈ activeSprings s, fusedV s cl f ≤ getF s (sprPage cl) Spr.vcode ∧ getF s (sprPage cl) Spr.pgood = 1;
    let bad := fusedStep s < f ∨ f < 10 ∨ getF s refPage Ref.source = 2;
    (s.pwr.privetOn = true → s.pwr.away = none → s.pwr.arm = none → s.pwr.heldTo ≤ s.now → (up → ready ∧ getF s pctPage Pct.forced ≠ 1) →
      (¬ bad → (up → recentDroop s = false) → ∃ t, exec (.stepGo target count) s = .next t ∧
        t = { s with fld := t.fld, pwr := { s.pwr with arm := some ⟨f, n, s.now, false⟩ } } ∧ getF t refPage Ref.armed = 1 ∧ getF t refPage Ref.forced = getF s refPage Ref.forced ∧
        getF t refPage Ref.target = f ∧ getF t refPage Ref.armCount = n ∧ stepCode t = stepCode s ∧
        ∀ cl, cl < 288 → getF t (clkPage cl) Clk.pendingStep = if clkState s cl = 0 ∨ clkState s cl = 3 then f else getF s (clkPage cl) Clk.pendingStep) ∧
      (bad → ∃ t, exec (.stepGo target count) s = .next t ∧ t = { s with fld := t.fld } ∧ getF t refPage Ref.refused = 1 ∧
        getF t refPage Ref.refuseCnt = (getF s refPage Ref.refuseCnt + 1) % 2 ^ 32) ∧
      (¬ bad → up → recentDroop s = true → ∃ t, exec (.stepGo target count) s = .next t ∧
        t = { s with fld := t.fld, pwr := t.pwr, freeCtr := t.freeCtr, jbuf := t.jbuf, jover := t.jover, evtDue := t.evtDue } ∧ t.pwr.arm = none ∧
        getF t refPage Ref.refused = 1 ∧ getF t refPage Ref.refuseCnt = (getF s refPage Ref.refuseCnt + 1) % 2 ^ 32 ∧
        (7 ≤ s.pwr.refusals → t.pwr.heldTo = s.now + 100 * msEdges ∧ t.pwr.refusals = 0) ∧ (s.pwr.refusals < 7 → t.pwr.refusals = s.pwr.refusals + 1))) ∧
    (s.pwr.privetOn = false ∨ s.pwr.arm.isSome = true ∨ s.now < s.pwr.heldTo ∨ s.pwr.away.isSome = true ∨ (up ∧ (¬ ready ∨ getF s pctPage Pct.forced = 1)) →
      exec (.stepGo target count) s = .next s)) ∧
  (∀ (missed : List ClusterId) (s : State),
    (∀ a, s.pwr.arm = some a → a.sent + a.count ≤ s.now → let down := a.target < stepCode s;
      ∃ t, exec (.stepSwitch missed) s = .next t ∧ t = { s with fld := t.fld, pwr := t.pwr } ∧
        t.pwr = { s.pwr with arm := none, switched := some s.now, refusals := if down then s.pwr.refusals else 0 } ∧ stepCode t = a.target % 64 ∧
        getF t refPage Ref.armed = 0 ∧ getF t refPage Ref.forced = (if a.forced then 1 else 0) ∧
        (∀ cl : ClusterId, clkState t cl = clkState s cl ∧ getF t (clkPage cl) Clk.step =
          if (clkState s cl = 1 ∨ clkState s cl = 2) ∧ cl ∉ missed then a.target % 64 else getF s (clkPage cl) Clk.step) ∧
        ∀ cl, cl < 288 → fusedV s cl a.target < 128 → getF t (sprPage cl) Spr.vcode =
          if down ∧ s.pwr.away = none ∧ cl ∈ activeSprings s then fusedV s cl a.target else getF s (sprPage cl) Spr.vcode) ∧
    (s.pwr.arm = none → exec (.stepSwitch missed) s = .next s) ∧
    (∀ a, s.pwr.arm = some a → s.now < a.sent + a.count → exec (.stepSwitch missed) s = .next s)) ∧
  (∀ (src : DroopSource) (s : State), let heard := match src with
      | .half _ => s.pwr.pwrGood = true
      | .cluster cl _ => clkState s cl = 1;
    let cancels := ∃ a, s.pwr.arm = some a ∧ stepCode s < a.target ∧ s.now + 16 < a.sent + a.count;
    let marks := fun t : State => ∀ cl det, src = .cluster cl det → (getF t (clkPage cl) Clk.det).testBit det = true ∧
      getF t (clkPage cl) Clk.stretching = 1 ∧ getF t (clkPage cl) Clk.droopCnt = (getF s (clkPage cl) Clk.droopCnt + 1) % 2 ^ 32 ∧
      (getClus t cl).droopAt = some ((getClus s cl).droopAt.getD s.now);
    (heard → ¬ cancels → ∃ t, exec (.droopDetect src) s = .next t ∧ t = { s with fld := t.fld, clus := t.clus, pwr := { s.pwr with droopAt := some s.now } } ∧
      marks t) ∧
    (heard → cancels → ∃ t, exec (.droopDetect src) s = .next t ∧
      t = { s with fld := t.fld, clus := t.clus, pwr := t.pwr, freeCtr := t.freeCtr, jbuf := t.jbuf, jover := t.jover, evtDue := t.evtDue } ∧ marks t ∧
      t.pwr.arm = none ∧ getF t refPage Ref.armed = 0 ∧ getF t refPage Ref.refused = 1 ∧
      getF t refPage Ref.refuseCnt = (getF s refPage Ref.refuseCnt + 1) % 2 ^ 32) ∧
    (¬ heard → exec (.droopDetect src) s = .next s)) ∧
  (∀ (cl : ClusterId) (n : Word32) (s : State), let pg := clkPage cl;
    let links := siteLinks s cl ++ edgeLinks s cl; let other := fun (e : ClockLink) => if e.1 = cl.val then e.2.1 else e.1;
    let slips := fun (p : Nat) => ((links.filter (fun e => e.2.2.1 == p)).map (fun e => (netSlips s cl (other e) n.toNat).1)).foldl (· + ·) 0;
    (getF s pg Clk.stretching ≠ 0 → ∃ t, exec (.droopDeassert cl n) s = .next t ∧
      t = { s with fld := t.fld, clus := t.clus, banks := t.banks, evtDue := t.evtDue, halfSlips := t.halfSlips, skids := t.skids } ∧ getF t pg Clk.stretching = 0 ∧
      (∀ p : SiteId, getF t (rtrPage p) Rtr.slipCnt = if slips p = 0 then getF s (rtrPage p) Rtr.slipCnt else (getF s (rtrPage p) Rtr.slipCnt + slips p) % 2 ^ 32) ∧
      (∀ e ∈ links, tblGet 0 t.halfSlips (slipKey cl (other e)) = (netSlips s cl (other e) n.toNat).2) ∧
      (∀ e ∈ links, (links.filter (fun x => x.2.2.1 == e.2.2.1 && x.2.2.2 == e.2.2.2)).length = 1 → let k := (netSlips s cl (other e) n.toNat).1;
        (getSkid t e.2.2.1 e.2.2.2).occ = if k = 0 then (getSkid s e.2.2.1 e.2.2.2).occ
          else if e.2.1 = cl.val then min 6 ((getSkid s e.2.2.1 e.2.2.2).occ + k) else min 6 ((getSkid s e.2.2.1 e.2.2.2).occ - k)) ∧
      getF t pg Clk.det = 0 ∧ getF t pg Clk.stretchCnt = (getF s pg Clk.stretchCnt + n.toNat) % 2 ^ 32 ∧ getC t cl Cpc.droopLong = 0 ∧
      getClus t cl = { getClus s cl with droopAt := none }) ∧
    (getF s pg Clk.stretching = 0 → exec (.droopDeassert cl n) s = .next s))

/-- Privet's control loops: force-minimum and its release, the issue limiter, the module loop, the step decision, thermal limits, the refit, the check of the
estimate and the recalibration (R370 to R375, R382 to R386, R388). -/
def Obligations.Control : Prop :=
  (∀ s : State, getF s inpPage Inp.bulkEn ≠ 0 → getF s pctPage Pct.forced ≠ 1 →
    (s.pwr.privetOn = true → ∃ t, exec (.forceMinimum .bulkAlert) s = .next t ∧ t = { s with fld := t.fld, pwr := t.pwr } ∧ Forced s t ∧ getF t inpPage Inp.bulkAlert = 1) ∧
    (beforeS7 s = false →
      (∀ ns, 1000 ≤ ns → ∃ t, exec (.forceMinimum (.pinLow ns)) s = .next t ∧ t = { s with fld := t.fld, pwr := t.pwr } ∧ Forced s t ∧ t.pwr.forceLow = true) ∧
      (∀ ns, 200 ≤ ns → ns < 1000 → ∃ t, exec (.forceMinimum (.pinLow ns)) s = .next t ∧ t = { s with fld := t.fld, pwr := t.pwr, freeCtr := t.freeCtr } ∧
        (t = { s with freeCtr := t.freeCtr } ∨ Forced s t)))) ∧
  (∀ (ns : Nat) (s : State), (ns < 200 → exec (.forceMinimum (.pinLow ns)) s = .next s) ∧
    (1000 ≤ ns → getF s inpPage Inp.bulkEn = 0 ∨ beforeS7 s = true →
      exec (.forceMinimum (.pinLow ns)) s = .next { s with pwr := { s.pwr with forceLow := true } })) ∧
  (∀ s : State, getF s inpPage Inp.bulkEn = 0 → exec (.forceMinimum .bulkAlert) s = .next s) ∧
  (∀ (edges : Word32) (s : State),
    (getF s pctPage Pct.forced ≠ 0 → 1000000 ≤ edges.toNat → s.pwr.away = none → ∃ t, exec (.forceMinRelease edges) s = .next t ∧
      t = { s with fld := t.fld, pwr := { s.pwr with forceLow := false } } ∧ getF t pctPage Pct.forced = 0 ∧ getF t inpPage Inp.bulkAlert = 0 ∧
      ∀ cl, cl < 288 → getC t cl Cpc.ceil = (if getC s cl Cpc.hold = 1 then 1 else 16) ∧ getC t cl Cpc.issueL = min (getC s cl Cpc.issueL) (getC t cl Cpc.ceil)) ∧
    (getF s pctPage Pct.forced = 0 → exec (.forceMinRelease edges) s = .next { s with pwr := { s.pwr with forceLow := false } }) ∧
    (getF s pctPage Pct.forced ≠ 0 → edges.toNat < 1000000 → exec (.forceMinRelease edges) s = .next s)) ∧
  (∀ (cl : ClusterId) (iout vout est : Word16) (s : State), let c := getClus s cl; let pg := sprPage cl; let l := getC s cl Cpc.issueL;
    let long := ∃ t0, c.droopAt = some t0 ∧ t0 + msEdges < s.now; let excess := long ∨ getF s pg Spr.efflim * 256 < iout.toNat; let meas := iout.toNat * vout.toNat / 1000;
    (clkState s cl = 1 ∨ clkState s cl = 2 → ∃ t l', exec (.issueLimiterPeriod cl iout vout est) s = .next t ∧
      t = { s with fld := t.fld, clus := t.clus, freeCtr := t.freeCtr, jbuf := t.jbuf, jover := t.jover, evtDue := t.evtDue } ∧
      (excess → l' = max 1 (l - 1) ∧ (getClus t cl).okRun = 0) ∧
      (¬ excess → c.okRun ≠ 7 → l' = l ∧ (getClus t cl).okRun = c.okRun + 1) ∧
      (¬ excess → c.okRun = 7 → l' = min (getC s cl Cpc.ceil) (l + 1) ∧ (getClus t cl).okRun = 0) ∧
      getC t cl Cpc.issueL = l' % 32 ∧ (getClus t cl).lSum = c.lSum + l' ∧ (getClus t cl).lCnt = c.lCnt + 1 ∧ (long → getC t cl Cpc.droopLong ≠ 0) ∧
      getF t pg Spr.iout = iout.toNat ∧ getF t pg Spr.vout = vout.toNat ∧ getC t cl Cpc.pEst = est.toNat ∧
      getC t cl Cpc.pMeas = meas % 2 ^ 16 ∧ (getClus t cl).measSum = c.measSum + meas ∧ (getClus t cl).estSum = c.estSum + est.toNat ∧
      (getClus t cl).measN = c.measN + 1) ∧
    (clkState s cl ≠ 1 → clkState s cl ≠ 2 → sprUp s cl = false → exec (.issueLimiterPeriod cl iout vout est) s = .next s) ∧
    (clkState s cl ≠ 1 → clkState s cl ≠ 2 → sprUp s cl = true → ∃ t, exec (.issueLimiterPeriod cl iout vout est) s = .next t ∧
      t = { s with fld := t.fld, clus := t.clus } ∧ getClus t cl = { c with measSum := c.measSum + meas, estSum := c.estSum + est.toNat, measN := c.measN + 1 } ∧
      getF t pg Spr.iout = iout.toNat ∧ getF t pg Spr.vout = vout.toNat ∧ getC t cl Cpc.pEst = est.toNat ∧ getC t cl Cpc.pMeas = meas % 2 ^ 16 ∧
      getC t cl Cpc.issueL = l)) ∧
  (∀ (a b : Word16) (s : State), let pIn := a.toNat; let pPer := b.toNat; let pSpr := springWatts s; let cEff := getF s pctPage Pct.capEff;
    let k := getF s pctPage Pct.k; let bound := (List.range 32).filter (fun h => (getHedge s h).state != .unbound); let plots := fun h => (hedgePlots (getHedge s h)).length;
    (privetRuns s = true → s.grants = [] → ∃ t, exec (.moduleLoopPeriod a b) s = .next t ∧
      t = { s with fld := t.fld, pwr := t.pwr, freeCtr := t.freeCtr, jbuf := t.jbuf, jover := t.jover, evtDue := t.evtDue } ∧
      getF t pctPage Pct.pIn = pIn ∧ getF t pctPage Pct.pPer = pPer ∧ getF t pctPage Pct.pSpr = pSpr % 2 ^ 16 ∧
      getF t pctPage Pct.pPred = (pPer + pSpr * 100 / 95) % 2 ^ 16 ∧
      getF t pctPage Pct.k = max 512 (min 1126 (if cEff < pIn then k * cEff / pIn else if 100 * pIn < 97 * cEff then k + k / 100 else k)) ∧
      (∀ cl, cl < 288 → let tf := getC s cl Cpc.tf;
        getC t cl Cpc.tf = if (getClus s cl).hot = true then max 4 (tf - 1) % 32 else if getC s cl Cpc.tC ≤ 552 then min 16 (tf + 1) else tf) ∧
      (∀ cl, cl < 288 → sprUp s cl = true → 1 ≤ getF t (sprPage cl) Spr.limit ∧ getF t (sprPage cl) Spr.limit ≤ 80) ∧
      (∀ h, h < 32 → h ∉ bound → hb t h Pct.hbBase = 0 ∧ hb t h Pct.hbBudget = 0) ∧
      (0 < pSpr → pPer < pIn → (∀ cl, cl < 288 → sprUp s cl = true → (budgetHedge s cl).isSome = true) → ∀ h ∈ bound,
        hb t h Pct.hbBase = (cEff - pPer) * 256 * pSpr / (pIn - pPer) * plots h / (256 * max 1 (bound.map plots).sum) % 2 ^ 16)) ∧
    (privetRuns s = false → exec (.moduleLoopPeriod a b) s = .next s)) ∧
  (∀ (fit : Fin 64) (s : State), let f := stepCode s; let ran := ranClusters s; let sum := (ran.map (fun cl => (getClus s cl).lSum)).sum;
    let cnt := (ran.map (fun cl => (getClus s cl).lCnt)).sum; let down := 0 < cnt ∧ sum < 12 * cnt ∨ s.pwr.sawTf = true;
    let up := (∀ cl ∈ ran, (getClus s cl).lSum = 16 * (getClus s cl).lCnt) ∧ s.pwr.sawPin = false ∧ s.pwr.sawHot = false ∧ s.pwr.sawForce = false;
    let anew := fun t : State => t.pwr.decided = s.now ∧ t.pwr.sawPin = false ∧ t.pwr.sawHot = false ∧ t.pwr.sawTf = false ∧ ∀ cl, cl < 288 → (getClus t cl).lCnt = 0;
    (privetRuns s = true → s.pwr.decided + msEdges ≤ s.now → s.pwr.heldTo ≤ s.now →
      (down → 10 < f → f ≤ fusedStep s → s.pwr.arm = none → getF s refPage Ref.source ≠ 2 → ∃ t n, exec (.stepDecision fit) s = .next t ∧
        t = { s with fld := t.fld, clus := t.clus, pwr := t.pwr } ∧ anew t ∧ t.pwr.arm = some ⟨max 10 (min fit.val (f - 1)), n, s.now, false⟩ ∧ 32 ≤ n) ∧
      (down → f ≤ 10 → ∃ t, exec (.stepDecision fit) s = .next t ∧ t = { s with clus := t.clus, pwr := t.pwr } ∧ anew t ∧ t.pwr.arm = s.pwr.arm) ∧
      (¬ down → up → f < fusedStep s → ∃ t, exec (.stepDecision fit) s = .next t ∧ t = { s with fld := t.fld, clus := t.clus, pwr := t.pwr } ∧ anew t ∧
        t.pwr.arm = s.pwr.arm ∧ getF t refPage Ref.target = f + 1 ∧
        ∀ cl, cl < 288 → fusedV s cl (f + 1) < 128 → getF t (sprPage cl) Spr.vcode =
          if cl ∈ activeSprings s then fusedV s cl (f + 1) else getF s (sprPage cl) Spr.vcode) ∧
      (¬ down → ¬ (up ∧ f < fusedStep s) → ∃ t, exec (.stepDecision fit) s = .next t ∧ t = { s with clus := t.clus, pwr := t.pwr } ∧ anew t ∧
        t.pwr.arm = s.pwr.arm)) ∧
    (s.now < s.pwr.decided + msEdges ∨ s.now < s.pwr.heldTo → exec (.stepDecision fit) s = .next s)) ∧
  (∀ (cl : ClusterId) (t0 t1 t2 t3 : Int) (predicted : Bool) (s : State), let ts := [t0, t1, t2, t3]; let ok := getC s cl Cpc.sensorOk; let i := Instr.thermalSample cl t0 t1 t2 t3 predicted;
    getF s inpPage Inp.bulkEn ≠ 0 →
    (∀ k, k < 4 → ok.testBit k = true → (ts.getD k 0 < -160 ∨ 600 < ts.getD k 0) → ∃ t, exec i s = .next t ∧ (getC t cl Cpc.sensorOk).testBit k = false) ∧
    (∀ top k0, (∀ x ∈ ts, -160 ≤ x ∧ x ≤ 600) → (∀ x ∈ ts, ∀ y ∈ ts, x - y ≤ 60) → k0 < 4 → ok.testBit k0 = true → ts.getD k0 0 = top →
      (∀ k, k < 4 → ok.testBit k = true → ts.getD k 0 ≤ top) →
      (top < 500 → (top < 440 ∨ getC s cl Cpc.hold ≠ 0) → ∃ t, exec i s = .next t ∧ t = { s with fld := t.fld, clus := t.clus, pwr := t.pwr } ∧
        getC t cl Cpc.tC = min 1023 (top + 160).toNat ∧ (getClus t cl).hot = (predicted || decide (400 ≤ top)) ∧ getC t cl Cpc.sensorOk = ok ∧
        t.pwr = { s.pwr with sawHot := s.pwr.sawHot || decide (380 < top) } ∧ fldSame (onlyFields (cpcBase cl) [(Cpc.tC, cl.val % 128)]) s t) ∧
      (440 ≤ top → top < 500 → getC s cl Cpc.hold = 0 → ∃ t, exec i s = .next t ∧ t = { s with fld := t.fld, clus := t.clus, pwr := t.pwr, evtDue := t.evtDue } ∧
        getC t cl Cpc.hold = 1 ∧ getC t cl Cpc.ceil = 1 ∧ getC t cl Cpc.issueL = min (getC s cl Cpc.issueL) 1 ∧ getF t pctPage Pct.thermHoldAny = 1 ∧
        (getF t pctPage Hdr.err).testBit Pct.eThermHold = true) ∧
      (500 ≤ top → ∃ t, exec i s = .next t ∧ t.mem = [] ∧ t.cores = [] ∧ t.flash = s.flash ∧ t.fuses = s.fuses ∧ t.dlog = s.dlog ∧ t.pwr.thermTrip = true ∧
        t.pwr.pwrGood = false ∧ getF t inpPage Inp.bulkEn = 0 ∧ getF t errPage Err.fatalCause = 4))) ∧
  (∀ (cl : ClusterId) (s : State), let c := getClus s cl;
    (getC s cl Cpc.hold = 1 → getC s cl Cpc.tC < 580 → c.warmAt + msEdges ≤ s.now → ∃ t, exec (.thermalHoldRelease cl) s = .next t ∧ t = { s with fld := t.fld } ∧
      getC t cl Cpc.hold = 0 ∧ getC t cl Cpc.ceil = (if getF s pctPage Pct.forced = 1 then 4 else 16) ∧
      getC t cl Cpc.issueL = min (getC s cl Cpc.issueL) (getC t cl Cpc.ceil) ∧
      getF t pctPage Pct.thermHoldAny = if allClusters.any (fun k => getC t k Cpc.hold == 1) then 1 else 0) ∧
    (getC s cl Cpc.hold ≠ 1 ∨ 580 ≤ getC s cl Cpc.tC ∨ s.now < c.warmAt + msEdges → exec (.thermalHoldRelease cl) s = .next s)) ∧
  (∀ (cl : ClusterId) (s : State), let c := getClus s cl; let m := c.measSum; let e := c.estSum; let off := m < 4 * (max e m - min e m);
    let c0 := { c with measSum := 0, estSum := 0, measN := 0 };
    let was := getC s cl Cpc.diverged; let offRun := if off then c.offRun + 1 else 0; let inRun := if off then 0 else c.inRun + 1;
    let others := fun t : State => ∀ k, k ≠ cl.val → getClus t k = getClus s k;
    privetRuns s = true →
    (∀ (ws : List Word16) (residual : Word16), let fits := residual.toNat ≤ 100 ∧ ws.length = 8 ∧ ∀ w ∈ ws, 64 ≤ w.toNat ∧ w.toNat ≤ 1024;
      (fits → ∃ t, exec (.weightRefit cl ws residual) s = .next t ∧ t = { s with clus := t.clus } ∧ others t ∧
        getClus t cl = { c with refitDue := false, weights := ws.map (fun w => w.toNat) }) ∧
      (¬ fits → ∃ t, exec (.weightRefit cl ws residual) s = .next t ∧ t = { s with clus := t.clus, fld := t.fld } ∧ others t ∧
        getClus t cl = { c with refitDue := false } ∧ getF t pctPage Pct.refitRejCnt = (getF s pctPage Pct.refitRejCnt + 1) % 2 ^ 32)) ∧
    (0 < c.measN → 512 * c.measN ≤ m →
      (was = 0 → 20 ≤ offRun → ∃ t, exec (.estimateCheck cl) s = .next t ∧
        t = { s with fld := t.fld, clus := t.clus, evtDue := t.evtDue, jbuf := t.jbuf, jover := t.jover } ∧ others t ∧ getC t cl Cpc.diverged = 1 ∧
        getClus t cl = { c0 with offRun := offRun, inRun := inRun, divAt := s.now, refitDue := true } ∧
        (getF t pctPage Hdr.err).testBit Pct.eDiverged = true) ∧
      (was = 1 → 100 ≤ inRun → ∃ t, exec (.estimateCheck cl) s = .next t ∧ t = { s with fld := t.fld, clus := t.clus } ∧ others t ∧
        getC t cl Cpc.diverged = 0 ∧ getClus t cl = { c0 with offRun := offRun, inRun := inRun }) ∧
      ((was = 0 → offRun < 20) → (was = 1 → inRun < 100) → ∃ t, exec (.estimateCheck cl) s = .next t ∧ t = { s with clus := t.clus } ∧ others t ∧
        getClus t cl = { c0 with offRun := offRun, inRun := inRun, recalDue := c.recalDue || (was == 1 && decide (c.divAt + 60 * secEdges ≤ s.now)) })) ∧
    (m < 512 * c.measN → ∃ t, exec (.estimateCheck cl) s = .next t ∧ t = { s with clus := t.clus } ∧ others t ∧ getClus t cl = c0) ∧
    (∀ g : Int,
      (c.recalAt = none → c.recalDue = true → recalSlot s cl = true → ∃ t, exec (.recalibration cl g) s = .next t ∧ t = { s with clus := t.clus } ∧ others t ∧
        getClus t cl = { c with recalAt := some s.now }) ∧
      (c.recalAt = none → c.recalDue = false ∨ recalSlot s cl = false → exec (.recalibration cl g) s = .next s) ∧
      (∀ from', c.recalAt = some from' →
        (recalSlot s cl = false → ∃ t, exec (.recalibration cl g) s = .next t ∧ t = { s with clus := t.clus } ∧ others t ∧
          getClus t cl = { c with recalAt := none }) ∧
        (recalSlot s cl = true → s.now < from' + 10000 → exec (.recalibration cl g) s = .next s) ∧
        (recalSlot s cl = true → from' + 10000 ≤ s.now → g.natAbs ≤ 200 → ∃ t, exec (.recalibration cl g) s = .next t ∧
          t = { s with clus := t.clus, fld := t.fld } ∧ others t ∧ getC t cl Cpc.senseBad = 0 ∧
          getClus t cl = { c with recalAt := none, recalDue := false, gain := g }) ∧
        (recalSlot s cl = true → from' + 10000 ≤ s.now → 200 < g.natAbs → ∃ t, exec (.recalibration cl g) s = .next t ∧
          t = { s with clus := t.clus, fld := t.fld, evtDue := t.evtDue, planned := t.planned } ∧ others t ∧ getC t cl Cpc.senseBad = 1 ∧
          getClus t cl = { c with recalAt := none, recalDue := false } ∧ (getF t pctPage Hdr.err).testBit Pct.eRecalFail = true ∧
          ∀ p ∈ clusterSites cl, p ∈ t.holes ∨ ∃ e ∈ t.planned, e.1 = p))))

/-- R387: while a Mere package is at or above 95 °C the reduction grows by 5 % of the fused maximum every 10 ms, up to 50 %; once every package is at or below 90 °C it falls by
5 % every 100 ms; it does not change otherwise. -/
def Obligations.MereReduction : Prop :=
  ∀ s : State, let p := s.pwr; let hot := ∃ m ∈ mereTemps s, 95 ≤ m; let cool := ∀ m ∈ mereTemps s, m ≤ 90; let same := exec .mereThermalReduction s = .next s;
    let becomes := fun n : Nat => ∃ t, exec .mereThermalReduction s = .next t ∧
      t = { s with fld := t.fld, evtDue := t.evtDue, pwr := { p with mereCut := n, mereAt := s.now } } ∧ getF t pctPage Pct.mereHotBit = (if n = 0 then 0 else 1) ∧
      getF t pctPage Pct.cap = capNow t ∧ getF t pctPage Pct.cap ≤ fusedMax s - fusedMax s * (5 * n) / 100;
    privetRuns s = true →
      (hot → p.mereCut = 0 → becomes 1) ∧ (hot → 0 < p.mereCut → p.mereCut < 10 → p.mereAt + 10 * msEdges ≤ s.now → becomes (p.mereCut + 1)) ∧
      (hot → 0 < p.mereCut → s.now < p.mereAt + 10 * msEdges → same) ∧ (hot → 10 ≤ p.mereCut → same) ∧
      (cool → 0 < p.mereCut → p.mereAt + 100 * msEdges ≤ s.now → becomes (p.mereCut - 1)) ∧ (cool → s.now < p.mereAt + 100 * msEdges → same) ∧
      (¬ hot → ¬ cool ∨ p.mereCut = 0 → same)

/-- Steering: the epoch's eligibility and a donor's grant, the five messages with their checks, and leases that lapse (R377 to R381, R466). -/
def Obligations.Steering : Prop :=
  (∀ s : State, let g := fun h => (getHedge s h).sgroup; let elig := fun h => 100 * waitOf s h ≤ 100 * minWait s (g h) (waitOf s h) + 2 * 65536 ∧ mayReceive s = true;
    (s.pwr.epochAt + 500000 ≤ s.now → s.pwr.away = none → s.pwr.privetOn = true →
      ∃ t, exec .epochEnd s = .next t ∧
        netOnly { s with pwr := { s.pwr with epoch := s.pwr.epoch + 1, epochAt := s.now }, waited := [], flash := t.flash, grants := t.grants, dry := t.dry,
                         nextGrant := t.nextGrant } t ∧
        (∀ h ∈ steeredHedges s, hb t h Pct.hbEligible = (if elig h then 1 else 0) ∧ tblGet 0 t.dry h = (if elig h then 0 else tblGet 0 s.dry h + 1)) ∧
        (steeredHedges s = [] → t.grants = s.grants ∧ t.outbox = s.outbox) ∧
        ∀ h tab r, steeredHedges s = [h] → s.grants = [] → getTab s (g h) = some tab → pickReceiver s (g h) tab.own (minWait s (g h) (waitOf s h)) = some r →
          100 * minWait s (g h) (waitOf s h) + 5 * 65536 ≤ 100 * waitOf s h → let watts := hb s h Pct.hbBase / 100; 0 < watts →
          t.grants = [⟨true, h, g h, r.from', s.nextGrant % 2 ^ 32, watts, s.now, s.now⟩] ∧ t.nextGrant = s.nextGrant + 1 ∧
            hb t h Pct.hbBudget = (hb s h Pct.hbBudget - watts) % 2 ^ 16 ∧ getF t pctPage Pct.grantCnt = (getF s pctPage Pct.grantCnt + 1) % 2 ^ 32) ∧
    (s.now < s.pwr.epochAt + 500000 → exec .epochEnd s = .next s)) ∧
  (∀ (k : ConnId) (s : State), ∀ e ∈ steerRows,
    ((getConn s k).inbox = [] ∨ s.pwr.away.isSome = true → exec (e.1 k) s = .next s) ∧
    (∀ w rest, (getConn s k).inbox = w :: rest → s.pwr.away = none → w.type = tMgmt → bNat w.body 0 1 = mkSteer → bNat w.body 32 1 = e.2 →
      let tab := getTab s (bNat w.body 33 1);
      (tab = none ∨ ∃ x, tab = some x ∧ (hmac384 x.key (w.body.take 64) ≠ (w.body.drop 64).take 48 ∨ bNat w.body 0x10 8 ≤ tblGet 0 x.seen (bNat w.body 34 1))) →
      ∃ t, exec (e.1 k) s = .next t ∧ t = { putConn k { getConn s k with inbox := rest } s with fld := t.fld, evtDue := t.evtDue } ∧
        getF t secPage Sec.steerDropCnt = (getF s secPage Sec.steerDropCnt + 1) % 2 ^ 32)) ∧
  (∀ (k : ConnId) (h from' : Nat) (b : List Byte) (s u : State), let id := bNat b 0xC 4; let watts := bNat b 0x10 4; let sg := (getHedge s h).sgroup;
    let heldBy := u.grants.find? (fun g => !g.given && g.hedge == h && g.peer == from' && g.ident == id);
    let fits := hb u h Pct.hbEligible = 1 ∧ mayReceive u = true ∧ 10 * (receivedOf u h + watts) ≤ hb u h Pct.hbBase ∧
      (capNow u : Int) + netWatts u + (watts : Int) ≤ (fusedMax u : Int) ∧ heldBy = none;
    (SteerMsg k kReport h from' b s u → ∃ t, exec (.steerReport k) s = .next t ∧ t = { u with reports := t.reports } ∧
      t.reports = u.reports.filter (fun x => !(x.group == sg && x.from' == from')) ++
        [⟨sg, from', bNat b 8 2, bNat b 0x14 4, signedOf 32 (bNat b 0x18 4), (bNat b 0xA 2).testBit 2, s.now⟩]) ∧
    (SteerMsg k kGrant h from' b s u →
      (∀ g, (bNat b 0xA 2).testBit 0 = true → heldBy = some g → ∃ t, exec (.steerGrant k) s = .next t ∧
        netOnly { u with grants := t.grants, flash := t.flash } t ∧ t.grants = u.grants.map (fun x => if x = g then { x with renewed := s.now } else x)) ∧
      ((bNat b 0xA 2).testBit 0 = true → heldBy = none → exec (.steerGrant k) s = .next u) ∧
      ((bNat b 0xA 2).testBit 0 = false → fits → ∃ t, exec (.steerGrant k) s = .next t ∧ netOnly { u with grants := t.grants, flash := t.flash } t ∧
        t.grants = u.grants ++ [⟨false, h, sg, from', id, watts, s.now, s.now⟩] ∧ hb t h Pct.hbBudget = (hb s h Pct.hbBudget + watts) % 2 ^ 16 ∧
        getF t pctPage Pct.grantCnt = (getF s pctPage Pct.grantCnt + 1) % 2 ^ 32) ∧
      ((bNat b 0xA 2).testBit 0 = false → ¬ fits → ∃ t, exec (.steerGrant k) s = .next t ∧ netOnly { u with flash := t.flash } t ∧
        (getF t pctPage Hdr.err).testBit Pct.eSteerRefuse = true)) ∧
    (SteerMsg k kAccept h from' b s u →
      (∀ g, givenGrant u h from' b = some g → exec (.steerAccept k) s =
        .next { u with grants := u.grants.map (fun x => if x = g then { x with acked := s.now } else x) }) ∧
      (givenGrant u h from' b = none → exec (.steerAccept k) s = .next u)) ∧
    (∀ e ∈ [((.steerRefuse, kRefuse) : (ConnId → Instr) × Nat), (.steerReturn, kReturn)], SteerMsg k e.2 h from' b s u →
      (∀ g, givenGrant u h from' b = some g → ∃ t, exec (e.1 k) s = .next t ∧ t = { u with grants := u.grants.filter (fun x => x != g), fld := t.fld } ∧
        hb t h Pct.hbBudget = (hb s h Pct.hbBudget + g.watts) % 2 ^ 16) ∧
      (givenGrant u h from' b = none → exec (e.1 k) s = .next u))) ∧
  (∀ s : State, s.pwr.away = none →
    ((∃ g ∈ s.grants, lapsed s g = true) → ∃ t, exec .leaseExp s = .next t ∧ netOnly { s with grants := t.grants, flash := t.flash } t ∧
      t.grants = s.grants.filter (fun g => !lapsed s g) ∧ (getF t pctPage Hdr.err).testBit Pct.eLeaseExp = true ∧
      getF t pctPage Pct.leaseExpCnt = (getF s pctPage Pct.leaseExpCnt + (s.grants.filter (lapsed s)).length) % 2 ^ 32) ∧
    ((∀ g ∈ s.grants, lapsed s g = false) → exec .leaseExp s = .next s))

/-! ## Bring-up, sparing and resets (R397 to R453, R530, R531) -/

/-- Bring-up's stages: what each finds goes into the state, a stage that passes is followed by the next, and the failures of R400 to R413 halt with their code (R397 to
R413). -/
def Obligations.BringUp : Prop :=
  (∀ (osc0 osc1 fusesOk okA okB : Bool) (s : State), let i := Instr.privetWake osc0 osc1 fusesOk okA okB; let fl := s.flash;
    let ok0 := osc0 = true ∧ getF s refPage Ref.osc0Lost = 0; let ok1 := osc1 = true ∧ getF s refPage Ref.osc1Lost = 0;
    let good := fun n : Nat => if n = 0 then okA = true ∧ fl.validA = true else okB = true ∧ fl.validB = true;
    (bootGo 0 s = true → s.boot.begun = false →
      (¬ ok0 → ¬ ok1 → ∃ t, exec i s = .next t ∧ HaltsBoot 0x0002 t) ∧
      (ok0 ∨ ok1 → fusesOk = false → ∃ t, exec i s = .next t ∧ HaltsBoot 0x0004 t) ∧
      (ok0 ∨ ok1 → fusesOk = true → ¬ good 0 → ¬ good 1 → ∃ t, exec i s = .next t ∧ HaltsBoot 0x0006 t) ∧
      (ok0 ∨ ok1 → fusesOk = true → ¬ (fl.trial = true ∧ 2 ≤ fl.trials) → good fl.slot → fl.config = [] → ∃ t, exec i s = .next t ∧
        stageOnly { s with bootNo := s.bootNo + 1, bootAt := s.now } t ∧ bootStage t = 1 ∧ t.boot.begun = true ∧ getF t bupPage Bup.state = 0 ∧
        getF t refPage Ref.source = (if ok0 then 0 else 1) ∧ getF t prvPage Prv.imageSvn = bNat (runningImage s) 0x10 1 % 128 ∧
        ∀ j, j < 12 → let word := fun d : List Byte => leNat ((d.drop (4 * j)).take 4);
          getF t secPage Sec.meas j = word (leBytes 48 Config.romDigest) ∧ getF t secPage Sec.meas (12 + j) = word (sha384 ((runningImage s).take 256)) ∧
          getF t secPage Sec.meas (24 + j) = word (((runningImage s).drop 0x20).take 48) ∧ getF t secPage Sec.meas (36 + j) = word (configDigest s)) ∧
      (ok0 ∨ ok1 → fusesOk = true → ¬ (fl.trial = true ∧ 2 ≤ fl.trials) → fl.slot ≤ 1 → ¬ good fl.slot → good (1 - fl.slot) → fl.config = [] →
        ∃ t, exec i s = .next t ∧ bootStage t = 1 ∧ t.flash = { fl with slot := 1 - fl.slot, trial := false, trials := 0 } ∧
          (getF t secPage Hdr.err).testBit Sec.eImageFallback = true)) ∧
    (s.boot.begun = true → exec i s = .next s)) ∧
  (∀ (fails : List (Fin 72)) (mv : Fin 4096) (s : State), let off := (List.range 72).filter (fun i => cellHeld s i || fails.any (fun f => f.val == i));
    bootGo 1 s = true →
    (1764 ≤ mv.val → mv.val ≤ 1836 → ∃ t, exec (.bulkEnable fails mv) s = .next t ∧ stageOnly { s with dlog := t.dlog, deadCells := t.deadCells } t ∧ bootStage t = 2 ∧
      (∀ c ∈ fails, cellHeld t c = true) ∧
      getF t inpPage Inp.bulkEn = 1 ∧ getF t inpPage Inp.rail = mv ∧ getF t inpPage Inp.good = 72 - off.length ∧ (∀ i, i < 72 → cellOk t i = decide (i ∉ off)) ∧
      getF t pctPage Pct.cap = capNow t ∧ (4 < off.length → getF t pctPage Pct.cellsLow = 1)) ∧
    (mv.val < 1764 ∨ 1836 < mv.val → ∃ t, exec (.bulkEnable fails mv) s = .next t ∧ HaltsBoot 0x0103 t ∧ getF t inpPage Inp.bulkEn = 0)) ∧
  (∀ s : State, bootGo 2 s = true → let split := ∃ w ∈ fuseWords s.fuses, voteAt s.fuses w = none;
    let fused := (List.range 4608).filter (fun p => (votedWord s.fuses (p / 32)).testBit (p % 32));
    (split → ∃ t, exec .fuseMapRead s = .next t ∧ HaltsBoot 0x0202 t) ∧
    (¬ split → ∃ t, exec .fuseMapRead s = .next t ∧ stageOnly s t ∧ bootStage t = 3 ∧ t.boot.fused = fused ∧
      t.boot.repairs = repairEntries s.fuses 16240 144 ∧ ∀ p, p ∈ t.boot.bad ↔ p ∈ fused ∨ p ∈ loggedSites s)) ∧
  (∀ (res : List WaveResult) (s : State), bootGo 3 s = true →
    (s.boot.stageAt + s.boot.wave * 20000 ≤ s.now → ∃ t, exec (.clusterWave res) s = .next t ∧
      stageOnly { s with clus := t.clus, hbAt := t.hbAt, dlog := t.dlog } t ∧ t.boot.wave = s.boot.wave + 1 ∧ bootStage t = (if s.boot.wave < 17 then 3 else 4) ∧
      ∀ cl ∈ waveClusters s.boot.wave, let r := res.find? (fun r => r.cl.val == cl); let sound := ∀ x, r = some x → x.phases = [];
        (clusterHeld s cl = true → sprState t cl = sprState s cl ∧ clkState t cl = clkState s cl ∧ ∀ p ∈ clusterSites cl, p ∈ t.boot.bad) ∧
        (clusterHeld s cl = false → sound → 2 < getF s (sprPage cl) Spr.healthy →
          (∀ x c, r = some x → x.trip = some c → sprState t cl = sprDark ∧ ∀ p ∈ clusterSites cl, p ∈ t.boot.bad) ∧
          ((∀ x, r = some x → x.trip = none) → sprState t cl = sprActive ∧ getF t (sprPage cl) Spr.pgood = 1 ∧ clkState t cl = 1 ∧ getF t (clkPage cl) Clk.step = 10 ∧
            getF t (sprPage cl) Spr.vcode = fusedV s cl 10 % 128 ∧ ∀ x, r = some x → getF t (sprPage cl) Spr.rbase = x.rbase.toNat))) ∧
    (s.now < s.boot.stageAt + s.boot.wave * 20000 → exec (.clusterWave res) s = .next s)) ∧
  (∀ (bundles : List Nat) (sigs : List (SiteId × Word64)) (links : List (SiteId × Bool)) (paths : List (SiteId × SiteId)) (edges : List (Fin 176)) (s : State), bootGo 4 s = true →
    let sig := fun p : Nat => ((sigs.find? (fun e => e.1.val == p)).map (fun e => e.2.toNat)).getD 0; let lk := links.map (fun e => (e.1.val, e.2));
    ∃ t, exec (.seamRepair bundles sigs links paths edges) s = .next t ∧ stageOnly { s with dlog := t.dlog } t ∧ bootStage t = 5 ∧
      t.boot.badPath = paths.map (fun e => (e.1.val, e.2.val)) ∧ t.boot.badEdge = edges.map (fun e => e.val) ∧ (∀ p ∈ s.boot.bad, p ∈ t.boot.bad) ∧
      (∀ p, p < 4608 → siteRuns s p = true → sigBad s sig lk p = true → p ∈ t.boot.bad) ∧
      ((∀ p, p < 4608 → siteRuns s p = true → sigBad s sig lk p = false) → links = [] → t.boot.bad = s.boot.bad)) ∧
  (∀ s : State, bootGo 5 s = true → s.boot.badPath = [] →
    let u : State := { s with holes := s.boot.bad, disabled := [], pinned := [], lost := [] };
    let v : State := { u with disabled := shortPlots u };
    ((shortPlots u).length = 32 → ∃ t, exec .mapBuild s = .next t ∧ HaltsBoot 0x0503 t) ∧
    (∀ r, (shortPlots u).length ≠ 32 → noDetour v = some r → ∃ t, exec .mapBuild s = .next t ∧ HaltsBoot 0x0502 t) ∧
    ((shortPlots u).length ≠ 32 → noDetour v = none → ∃ t, exec .mapBuild s = .next t ∧
      stageOnly { v with detour := t.detour, rtrAll := t.rtrAll, rtrOwn := [], mapped := true } t ∧ bootStage t = 6 ∧ t.detour = detourTable v ∧ t.rtrAll = plotTable v ∧
      getF t bupPage Bup.mask = plotMask v % 2 ^ 32 ∧ getF t bupPage Bup.plots = (plotsOffered v).length ∧
      getF t bupPage Bup.cores = 128 * (plotsOffered v).length)) ∧
  (∀ s : State, bootGo 5 s = true → ∃ t, exec .mapBuild s = .next t ∧ t.mem = s.mem ∧ t.conns = s.conns ∧ (∀ p ∈ s.boot.bad, p ∈ t.boot.bad) ∧
    (getF t bupPage Bup.state = 3 ∨ bootStage t = 6 ∧ t.mapped = true)) ∧
  (∀ (fails : List SiteId) (s : State), let halted := fun t : State => getF t bupPage Bup.state = 3; let known := ∀ p ∈ fails, p.val ∈ s.boot.bad;
    let taken := fun t : State => ∀ p ∈ fails, p.val ∈ t.boot.bad;
    (bootGo 6 s = true → (known → s.pwr.forceLow = false → ∃ t, exec (.runtimeImageBroadcast fails) s = .next t ∧ stageOnly s t ∧ bootStage t = 7 ∧ t.boot.bad = s.boot.bad) ∧
      (known → s.pwr.forceLow = true → ∃ t, exec (.runtimeImageBroadcast fails) s = .next t ∧ t.mem = s.mem ∧ t.boot.bad = s.boot.bad ∧ bootStage t = 7 ∧ getF t pctPage Pct.forced = 1) ∧
      (¬ known → ∃ t, exec (.runtimeImageBroadcast fails) s = .next t ∧ taken t ∧ t.mem = s.mem ∧ (halted t ∨ bootStage t = 7))) ∧
    (bootGo 7 s = true →
      (known → ∃ t, exec (.knownAnswerRun fails) s = .next t ∧ stageOnly { s with mem := t.mem, damage := t.damage, cores := t.cores } t ∧ bootStage t = 8 ∧
        (∀ c, c < 4096 → getCore t c = if plotOfCore c ∈ s.disabled then {} else { scrubbedCore with mode := .idle }) ∧
        ∀ a, memByte t a = if a < mereBase then 0 else memByte s a) ∧
      (¬ known → s.boot.passes = 0 → ∃ t, exec (.knownAnswerRun fails) s = .next t ∧ taken t ∧ t.mem = s.mem ∧
        (halted t ∨ bootStage t = 7 ∧ t.boot.passes = 1 ∧ getF t bupPage Bup.repeatBit = 1)) ∧
      (¬ known → s.boot.passes ≠ 0 → ∃ t, exec (.knownAnswerRun fails) s = .next t ∧ taken t ∧ (halted t ∨ bootStage t = 8)))) ∧
  (∀ s : State, let present := (List.range 4).filter (ifcPresent s); let up := ∀ i ∈ present, i ∈ ifcsUp s;
    (bootGo 9 s = true →
      (s.boot.linking = false → ∃ t, exec .ethernetBringUp s = .next t ∧ t = { s with boot := { s.boot with linking := true, ports := true }, ifcs := t.ifcs } ∧
        ∀ i, i < 4 → getIfc t i = if i ∈ present then { getIfc s i with state := ifTraining, since := s.now } else getIfc s i) ∧
      (s.boot.linking = true → up ∨ s.boot.stageAt + 5000 * msEdges ≤ s.now → ∃ t, exec .ethernetBringUp s = .next t ∧ stageOnly s t ∧ bootStage t = 10) ∧
      (s.boot.linking = true → ¬ up → s.now < s.boot.stageAt + 5000 * msEdges → exec .ethernetBringUp s = .next s)) ∧
    (bootGo 10 s = true → s.pwr.forceLow = true → ∃ t, exec .readyStage s = .next t ∧ t.mem = s.mem ∧ t.pwr.pwrGood = true ∧ getF t pctPage Pct.forced = 1 ∧
      getF t bupPage Bup.state = (if (plotsOffered s).length < 32 ∨ chanCount s < 192 then 2 else 1)) ∧
    (bootGo 10 s = true → s.pwr.forceLow = false → ∃ t, exec .readyStage s = .next t ∧
      stageOnly { s with pwr := { s.pwr with pwrGood := true, decided := s.now, epochAt := s.now }, fuses := t.fuses, flash := t.flash } t ∧
      getF t prvPage Prv.state = 1 ∧ getF t bupPage Bup.code = 0x0A01 ∧
      getF t bupPage Bup.state = (if (plotsOffered s).length < 32 ∨ chanCount s < 192 then 2 else 1) ∧
      (s.flash.trial = false → t.fuses = s.fuses ∧ t.flash = s.flash) ∧
      (s.flash.trial = true → t.flash = { s.flash with trial := false, trials := 0 } ∧ getF t prvPage Prv.trial = 0 ∧
        (s.fuses.svn ≤ 64 → s.fuses.svn ≤ t.fuses.svn))) ∧
    (∀ n, n < 10 → bootGo n s = true → s.boot.begun = true → let ms := if n = 7 ∧ s.boot.passes = 1 then 122 else budgets.getD n 0;
      (s.boot.stageAt + ms * 100000 < s.now → ∃ t, exec .stageBudget s = .next t ∧ HaltsBoot (n * 256 + 0xFF) t) ∧
      (s.now ≤ s.boot.stageAt + ms * 100000 → exec .stageBudget s = .next s)))

/-- Runtime sparing and field tests: heartbeats and their loss, a shift from its plan to its commit or its rollback, planned retirements, tests of idle sites with their
votes, and the journal's commit (R335, R415 to R423, R435, R437 to R441). -/
def Obligations.Sparing : Prop :=
  (∀ (p : SiteId) (s : State), let cl := clusterOfSite p;
    (∀ alive quiet : Bool,
      (p.val ∉ s.holes → clkState s cl = 1 → ∃ t, exec (.heartbeat p alive quiet) s = .next t ∧ t = { s with fld := t.fld, hbAt := t.hbAt, hbQuiet := t.hbQuiet } ∧
        getF t (sitePage p) Site.alive = (if alive then 1 else 0) ∧ fldSame (onlyFields (sitePage p) [(Site.alive, 0)]) s t ∧
        (∀ q, tblGet 0 t.hbAt q = if q = p.val then s.now else tblGet 0 s.hbAt q) ∧
        ∀ q, q ∈ t.hbQuiet ↔ q ∈ s.hbQuiet ∧ q ≠ p.val ∨ q = p.val ∧ quiet = true) ∧
      (p.val ∈ s.holes ∨ clkState s cl ≠ 1 → exec (.heartbeat p alive quiet) s = .next s)) ∧
    (p.val ∉ s.holes → (hbMissed s p = true ∨ getF s (sitePage p) Site.alive ≠ 1) → (∀ e ∈ s.failed, e.1 ≠ p.val) →
      ∃ t, exec (.heartbeatLoss p false) s = .next t ∧ (p.val ∈ t.holes ∨ ∃ e ∈ t.failed, e.1 = p.val) ∧
        (s.dlog.length < 4096 → ∃ d ∈ t.dlog, d.kind = 0 ∧ d.unit = p.val) ∧ t.conns = s.conns ∧ t.chans = s.chans) ∧
    (p.val ∈ s.holes → ∀ a, exec (.heartbeatLoss p a) s = .next s) ∧ exec (.heartbeatLoss p true) s = .next s ∧
    (hbMissed s p = false → getF s (sitePage p) Site.alive = 1 → exec (.heartbeatLoss p false) s = .next s)) ∧
  (∀ (h : HedgeId) (s : State), let k := getHedge s h; let sites := (failedIn s k).map (fun e => e.1); let others := fun t : State => ∀ g, g ≠ h.val → getHedge t g = getHedge s g;
    let may := k.state = .frozen ∨ k.state = .bound ∨ k.state = .ready ∨ k.state = .retained;
    (failedIn s k ≠ [] → tblFind h s.shifts = none → may → shortSites s sites = false → ∃ t, exec (.shiftPlan h) s = .next t ∧
      t = { s with fld := t.fld, hedges := t.hedges, shifts := t.shifts, wakeReqs := t.wakeReqs, dlog := t.dlog, jbuf := t.jbuf, jover := t.jover, evtDue := t.evtDue } ∧
      others t ∧ getHedge t h = { k with state := .frozen } ∧ tblFind h t.shifts = some { sites := sites, planned := false, resume := k.state } ∧
      getF t bupPage Bup.shifting = 1 ∧ getF t bupPage Bup.shiftHedge = h) ∧
    (failedIn s k ≠ [] → tblFind h s.shifts = none → may → shortSites s sites = true → s.jobs = [] → (getQueue s h).resetting = false →
      ∃ t, exec (.shiftPlan h) s = .next t ∧ others t ∧ (∀ p ∈ sites, p ∈ t.holes ∧ (if (coreOfSite s p).isSome then p else p + 1) ∈ t.doomed) ∧ (getHedge t h).spareExh = true ∧ (getHedge t h).run = none ∧
        (getHedge t h).state = (if k.state = .retained then .retained else .frozen) ∧ (getF t bupPage Hdr.err).testBit Bup.eSpareExhausted = true ∧
        ∀ f, k.run.isSome = true → startedOp s h 3 = some f → ∃ e : Ending, e.status = stSpareExhausted ∧ Completed h f e s t) ∧
    (failedIn s k = [] ∨ (tblFind h s.shifts).isSome = true ∨ ¬ may → exec (.shiftPlan h) s = .next s) ∧
    (∀ sh, tblFind h s.shifts = some sh → let clocks := ∀ cl ∈ shiftReceivers sh.sites, clkState s cl = 1;
      let becomes := fun (i : Instr) (x : Shift) => ∃ t, exec i s = .next t ∧ t = { s with shifts := t.shifts } ∧ tblFind h t.shifts = some x;
      (sh.copied = false → clocks → becomes (.shiftCopy h none) { sh with started := true, copied := true }) ∧
      (∀ p : SiteId, sh.copied = false → clocks → (∃ q ∈ sh.sites, siteRow q = siteRow p ∧ siteCol q / 9 = siteCol p / 9 ∧ siteCol q ≤ siteCol p) →
        (sh.tries = 0 → becomes (.shiftCopy h (some p)) { sh with started := true, tries := 1 }) ∧
        (sh.tries ≠ 0 → k.killWaits = false → ∃ t, exec (.shiftCopy h (some p)) s = .next t ∧ tblFind h t.shifts = none ∧ (getHedge t h).state = sh.resume ∧
          (p.val ∈ t.holes ∨ ∃ e ∈ t.failed, e.1 = p.val) ∧ (getF t bupPage Hdr.err).testBit Bup.eRollback = true)) ∧
      (∀ lane, sh.copied = true ∨ ¬ clocks → exec (.shiftCopy h lane) s = .next s) ∧
      (sh.copied = true → k.killWaits = false → k.run = none → (getQueue s h).resetting = false → s.jobs = [] →
        ∃ t, exec (.shiftCommit h) s = .next t ∧ others t ∧ tblFind h t.shifts = none ∧
          getHedge t h = { k with state := sh.resume, shiftHold := false, reload := (getHedge t h).reload } ∧
          (∀ p ∈ sh.sites, p ∈ t.holes ∧ p ∈ t.retired ∧ (∀ e ∈ t.failed, e.1 ≠ p) ∧ ∀ e ∈ t.planned, e.1 ≠ p) ∧ t.detour = detourTable t ∧
          getF t bupPage Bup.retireCnt = (getF s bupPage Bup.retireCnt + 1) % 2 ^ 32 ∧
          ∀ c, (∀ p ∈ sh.sites, c ∉ shiftMovers s p) → getCore t c = getCore s c) ∧
      (sh.copied = false → exec (.shiftCommit h) s = .next s)) ∧
    (tblFind h s.shifts = none → exec (.shiftCommit h) s = .next s ∧ ∀ lane, exec (.shiftCopy h lane) s = .next s)) ∧
  (∀ (p : SiteId) (s : State), let waits := fun t : State => ∃ e ∈ t.planned, e.1 = p.val;
    (s.planned.find? (fun e => e.1 == p.val) = none → exec (.plannedRetirement p) s = .next s) ∧
    (∀ e, s.planned.find? (fun e => e.1 == p.val) = some e →
      (e.2 ≠ 6 →
        (touchedPlot s p = none → ∃ t, exec (.plannedRetirement p) s = .next t ∧ p.val ∈ t.holes ∧ p.val ∈ t.retired ∧ ¬ waits t ∧ t.mem = s.mem) ∧
        (∀ pl, touchedPlot s p = some pl → hedgeOfPlot s pl = none → ∃ t, exec (.plannedRetirement p) s = .next t ∧ p.val ∈ t.holes ∧ ¬ waits t ∧
          (shortSite s p = true → pl ∈ t.disabled ∧ t.notices = s.notices ++ [.noSpare p]) ∧ (shortSite s p = false → t.disabled = s.disabled)) ∧
        (∀ pl h, touchedPlot s p = some pl → hedgeOfPlot s pl = some h → let k := getHedge s h;
          let idle := k.run = none ∧ (k.state = .bound ∨ k.state = .ready) ∧ failedIn s k = [];
          (¬ idle → exec (.plannedRetirement p) s = .next s) ∧
          (idle → shortSite s p = false → ∃ t, exec (.plannedRetirement p) s = .next t ∧ (getHedge t h).state = .frozen ∧
            tblFind h t.shifts = some { sites := [p.val], planned := true, resume := k.state } ∧ t.mem = s.mem ∧ t.cores = s.cores) ∧
          (idle → shortSite s p = true → ∃ t, exec (.plannedRetirement p) s = .next t ∧ ¬ waits t ∧ p.val ∈ t.doomed ∧ t.notices = s.notices ++ [.noSpare p] ∧
            t.shifts = s.shifts ∧ t.mem = s.mem ∧ t.cores = s.cores ∧ (getHedge t h).state = k.state))) ∧
      (e.2 = 6 → (∀ q ∈ clusterSites (clusterOfSite p), touchedPlot s q = none) → ∃ t, exec (.plannedRetirement p) s = .next t ∧ p.val ∈ t.holes ∧ ¬ waits t ∧
        sprState t (clusterOfSite p) = sprRetired ∧ clkState t (clusterOfSite p) = 0))) ∧
  (∀ (p : SiteId) (s : State), let inMode := fun (m : CoreMode) (t : State) => ∀ c, coreOfSite s p = some c → (getCore t c).mode = m;
    (testable s p = true → ∃ t, exec (.fieldTest p none) s = .next t ∧
      t = { s with fld := t.fld, clus := t.clus, wakeReqs := t.wakeReqs, freeCtr := t.freeCtr, tests := t.tests, testedAt := t.testedAt, retest := t.retest, cores := t.cores } ∧
      p.val ∈ inTest t ∧ tblFind p t.testedAt = some s.now ∧ inMode .test t) ∧
    (testWakes s p = true → ∃ t, exec (.fieldTest p none) s = .next t ∧ t = { s with clus := t.clus, wakeReqs := t.wakeReqs } ∧ clusterOfSite p ∈ t.wakeReqs ∧
      getClus t (clusterOfSite p) = { getClus s (clusterOfSite p) with testWake := some s.now }) ∧
    (testable s p = false → testWakes s p = false → exec (.fieldTest p none) s = .next s) ∧
    (p.val ∈ inTest s →
      (∀ d : Word64, ∃ t, exec (.fieldTest p (some (.digest d))) s = .next t ∧ t = { s with fld := t.fld, cores := t.cores, idleAt := t.idleAt, tests := t.tests } ∧
        p.val ∉ inTest t ∧ inMode .idle t ∧ getF t ftePage Fte.runCnt = (getF s ftePage Fte.runCnt + 1) % 2 ^ 32 ∧
        let ds := fun r : TestRun => if p.val ∈ r.running then r.digests ++ [(p.val, d.toNat)] else r.digests;
        t.tests = s.tests.map (fun r => { r with running := r.running.filter (· != p.val), digests := ds r })) ∧
      (∀ kind, ∃ t, exec (.fieldTest p (some (.originFail kind))) s = .next t ∧ p.val ∉ inTest t ∧ inMode .idle t ∧
        getF t ftePage Fte.runCnt = getF s ftePage Fte.runCnt ∧ ((∀ w, kind ≠ .tpm w false) → (∀ r, kind ≠ .reg r false) → (∀ i, kind ≠ .acc i false) →
          getF t errPage Err.ucCnt = (getF s errPage Err.ucCnt + 1) % 2 ^ 32)) ∧
      (∃ t, exec (.fieldTestYield p) s = .next t ∧ t = { s with fld := t.fld, cores := t.cores, idleAt := t.idleAt, tests := t.tests } ∧ p.val ∉ inTest t ∧ inMode .idle t ∧
        getF t ftePage Fte.yieldCnt = (getF s ftePage Fte.yieldCnt + 1) % 2 ^ 32 ∧ t.tests.map (fun r => r.digests) = s.tests.map (fun r => r.digests))) ∧
    (p.val ∉ inTest s → exec (.fieldTestYield p) s = .next s ∧ ∀ e, exec (.fieldTest p (some e)) s = .next s)) ∧
  (∀ s : State, let passed := fun (p : Nat) (t : State) => getF t (stePage (p / 512)) Ste.ftPass (p % 512) = 1;
    let outvoted := fun (p : Nat) (t : State) => getF t (stePage (p / 512)) Ste.ftOutvoted (p % 512) = 1 ∧ (p ∈ t.holes ∨ ∃ e ∈ t.planned, e.1 = p) ∧
      getF t ftePage Fte.retireCnt = (getF s ftePage Fte.retireCnt + 1) % 2 ^ 32 ∧ (getF t errPage Hdr.err).testBit Err.eFtOutvote = true;
    (s.tests.find? decided = none → exec .fieldTestVote s = .next s) ∧
    ∀ r, s.tests.find? decided = some r →
      (∀ a b, r.digests = [a, b] → a.2 = b.2 → ∃ t, exec .fieldTestVote s = .next t ∧ t = { s with fld := t.fld, tests := s.tests.erase r, splits := t.splits } ∧
        passed a.1 t ∧ passed b.1 t) ∧
      (∀ a b, r.digests = [a, b] → a.2 ≠ b.2 → ∃ t, exec .fieldTestVote s = .next t ∧ t = { s with fld := t.fld, tests := t.tests } ∧
        t.tests = s.tests.map (fun x => if x = r then { x with third := true } else x) ∧ getF t ftePage Fte.mmCnt = (getF s ftePage Fte.mmCnt + 1) % 2 ^ 32) ∧
      (∀ a b c, r.digests = [a, b, c] →
        (a.2 = c.2 → ∃ t, exec .fieldTestVote s = .next t ∧
          t = { s with fld := t.fld, tests := s.tests.erase r, evtDue := t.evtDue, planned := t.planned, splits := t.splits } ∧ outvoted b.1 t) ∧
        (a.2 ≠ c.2 → b.2 = c.2 → ∃ t, exec .fieldTestVote s = .next t ∧
          t = { s with fld := t.fld, tests := s.tests.erase r, evtDue := t.evtDue, planned := t.planned, splits := t.splits } ∧ outvoted a.1 t) ∧
        (a.2 ≠ b.2 → a.2 ≠ c.2 → b.2 ≠ c.2 → ∃ t, exec .fieldTestVote s = .next t ∧
          t = { s with fld := t.fld, tests := s.tests.erase r, retest := t.retest, splits := t.splits } ∧ (∀ e ∈ r.digests, e.1 ∈ t.retest) ∧
          (∀ x ∈ r.digests, ∀ y ∈ r.digests, apart t x.1 y.1 = true) ∧ getF t ftePage Fte.splitCnt = (getF s ftePage Fte.splitCnt + 1) % 2 ^ 32))) ∧
  (∀ s : State, let all := s.flash.journal ++ s.jbuf;
    (s.pwr.failing = false → s.pwr.away = none → s.pwr.privetOn = true →
      ((∀ e ∈ s.ceAgg, e.2.n = 0 ∨ s.now < e.2.at_ + 100000000) →
        (s.jover = 0 → exec .journalCommit s = .next { s with jbuf := [], jover := 0, flash := { s.flash with journal := all.drop (all.length - 131072) } }) ∧
        (s.jover ≠ 0 → ∃ t r, exec .journalCommit s = .next t ∧ t = { s with fld := t.fld, jbuf := [], jover := 0, flash := { s.flash with journal := t.flash.journal } } ∧
          t.flash.journal.getLast? = some r ∧ r.cls = jOverflow ∧ r.info = s.jover)) ∧
      (∀ b e pg, s.ceAgg = [(b, e)] → 0 < e.n → e.at_ + 100000000 ≤ s.now → pageAt s b = some pg → s.jover = 0 → s.jbuf.length < 512 →
        ∃ t r, exec .journalCommit s = .next t ∧ t.jbuf = [] ∧ t.jover = 0 ∧ t.flash.journal.getLast? = some r ∧ r.cls = jCe ∧ r.code = e.code ∧ r.info = e.n)) ∧
    (s.pwr.failing = true ∨ s.pwr.away.isSome = true ∨ s.pwr.privetOn = false → exec .journalCommit s = .next s))

/-- Resets: the pin, the power-on reset, the request's reset after 1 ms, and the watchdog's restart of Privet with its return and its escalation (R389, R443, R445, R446,
R460, R531). -/
def Obligations.Resets : Prop :=
  (∀ (edges : Word32) (s : State),
    (1000 ≤ edges.toNat → resettable s → ∃ t, exec (.resetN edges) s = .next t ∧ ResetDevice 1 { s with pwr := { s.pwr with resetLow := true } } t) ∧
    (1000 ≤ edges.toNat → s.pwr.thermTrip = true → exec (.resetN edges) s = .next { s with pwr := { s.pwr with resetLow := true } }) ∧
    (edges.toNat < 1000 → exec (.resetN edges) s = .next s)) ∧
  (∀ s : State, exec .resetNRelease s = .next { s with pwr := { s.pwr with resetLow := false } }) ∧
  (∀ (ecdsa lms : Bool) (s : State) (at' : Nat), s.resetAt = some at' → at' + msEdges ≤ s.now → resettable s →
    ∃ t, exec (.deviceReset ecdsa lms) s = .next t ∧ ResetDevice 2 s t) ∧
  (∀ (b : Fin 2) (dv : Fin 1024) (s : State),
    (s.pwr.privetOn = false → 300 ≤ dv.val → dv.val ≤ 400 → (∀ e ∈ s.fresh, e / 32 % 4096 = 0) → ∃ t, exec (.powerOnReset b dv) s = .next t ∧ t.mem = [] ∧ t.deadCells = [] ∧ t.cores = [] ∧ t.conns = [] ∧
      t.hedges = [] ∧ t.powerOn = s.powerOn + 1 ∧ t.pwr.privetOn = true ∧ t.pwr.thermTrip = false ∧ t.dlog = s.dlog ∧ t.fuses = s.fuses ∧ t.boot.begun = false ∧
      t.flash.lastCap = s.flash.capDef ∧ t.flash.sreq = s.flash.sreq ∧ getF t pctPage Pct.cap = capNow t ∧ getF t errPage Err.rstCause = 0 ∧ barState t b = 0 ∧
      (∀ o : Fin 2, o ≠ b → barState t o = barState s o)) ∧
    (s.pwr.privetOn = true ∨ dv.val < 300 ∨ 400 < dv.val → exec (.powerOnReset b dv) s = .next s)) ∧
  (∀ s : State, let times := s.pwr.wdogs.filter (fun t => decide (s.now < t + 60 * secEdges)) ++ [s.now];
    (s.pwr.privetOn = true → s.pwr.away = none → bootRunning s = false → ∃ t, exec .privetWatchdogReset s = .next t ∧
      t = { s with fld := t.fld, freeCtr := t.freeCtr, cores := t.cores, sessions := [], frags := [], tests := [], busy := t.busy, pwr := t.pwr, jbuf := t.jbuf,
                   jover := t.jover, evtDue := t.evtDue, fresh := t.fresh, notices := t.notices } ∧
      t.pwr = { s.pwr with away := some s.now, wdogs := times, escalated := s.pwr.escalated || decide (3 ≤ times.length) } ∧
      t.notices = s.notices ++ (if 3 ≤ times.length then [.fatal 5] else []) ∧ getF t prvPage Prv.wdogCnt = (getF s prvPage Prv.wdogCnt + 1) % 2 ^ 32 ∧
      (getF t errPage Hdr.err).testBit Err.eWdog = true ∧ (∀ u, s.busy = some u → t.busy = some { u with broken := true }) ∧
      (∀ c, (getCore s c).mode = .test → (getCore t c).mode = .idle) ∧
      ∀ cl, cl < 288 → getF t (sprPage cl) Spr.limit = getC s cl Cpc.limBase % 128) ∧
    (s.pwr.privetOn = true → s.pwr.away = none → bootRunning s = true → ∃ u cause, u = { s with fld := u.fld, freeCtr := u.freeCtr } ∧
      exec .privetWatchdogReset s = .next (deviceReset cause u)) ∧
    (s.pwr.privetOn = false ∨ s.pwr.away.isSome = true → exec .privetWatchdogReset s = .next s) ∧
    (s.pwr.away.isSome = true → s.pwr.escalated = false → ∃ t, exec .privetWatchdogReturn s = .next t ∧
      netOnly { s with pwr := { s.pwr with away := none }, grants := s.grants.filter (fun g => g.given), flash := t.flash } t ∧
      ∀ cl, cl < 288 → cl ∈ activeSprings s → fusedV s cl (stepCode s) < 128 → getF t (sprPage cl) Spr.vcode = fusedV s cl (stepCode s)) ∧
    (s.pwr.away = none ∨ s.pwr.escalated = true → exec .privetWatchdogReturn s = .next s ∧ exec .privetWatchdogEscalation s = .next s) ∧
    (∀ t0, s.pwr.away = some t0 → s.pwr.escalated = false →
      (t0 + 500 * msEdges ≤ s.now → ∃ t, exec .privetWatchdogEscalation s = .next t ∧
        t = { s with fld := t.fld, pwr := { s.pwr with escalated := true }, fresh := t.fresh, jbuf := t.jbuf, jover := t.jover, evtDue := t.evtDue,
                     notices := s.notices ++ [.fatal 5] } ∧ getF t errPage Err.fatalCause = 5) ∧
      (s.now < t0 + 500 * msEdges → exec .privetWatchdogEscalation s = .next s)))

/-! ## Privet (R231, R458 to R478) -/

/-- Privet's rows: each serves the request that asks for it, after the checks of its class in their order, and answers with the payload of R460; the telemetry push, a
session's end, the debug connector and the inventory (R369, R447, R458 to R478, R529). -/
def Obligations.Privet : Prop :=
  (∀ (r : PReq) (s u : State),
    (Serves 0x01 r s u → exec .identityRead s = .next (respond r pvOk 0 (certificate u) none u)) ∧
    (Serves 0x02 r s u → exec .statusRead s = .next (respond r pvOk 0 (statusPayload u) none u)) ∧
    (∀ imageOk flashOk, ∀ (f : Bool → Bool → Instr) (cmd : Nat), SensRow imageOk flashOk f cmd → Serves cmd r s u → s.resetAt = none →
      (∀ b, s.busy = some b → b.broken = false → exec (f true true) s = .next (respond r pvBusy 0 [] none u)) ∧
      (s.busy = none → ∀ ecdsa lms : Bool,
        (rqSerial r.block ≠ s.fuses.serial → exec (f ecdsa lms) s = .next (respond r pvWrongDevice 0 [] none u)) ∧
        (rqSerial r.block = s.fuses.serial → rqCounter r.block ≠ s.flash.sreq → exec (f ecdsa lms) s = .next (respond r pvStale 0 [] none u)) ∧
        (rqSerial r.block = s.fuses.serial → rqCounter r.block = s.flash.sreq → (ecdsa && lms) = false → ∃ v,
          v = { u with fld := v.fld, evtDue := v.evtDue, jbuf := v.jbuf, jover := v.jover } ∧ (getF v secPage Hdr.err).testBit Sec.eBadSig = true ∧
          exec (f ecdsa lms) s = .next (respond r (if ecdsa = false then pvBadEcdsa else pvBadLms) 0 [] none v)))) ∧
    (∀ (key : Option (List Byte)) (i : Instr) (cmd : Nat), RoutineRow key i cmd → Serves cmd r s u →
      (sessionOf s r.src = none → exec i s = .next (respond r pvNoSession 0 [] none u)) ∧
      (∀ x, sessionOf s r.src = some x →
        (rqSession r.block ≠ x.number → exec i s = .next (respond r pvNoSession 0 [] none u)) ∧
        (rqSession r.block = x.number → hmac384 x.mac (rqSigned r.block) ≠ rqAuth r.block → ∃ v, v = { u with fld := v.fld, evtDue := v.evtDue } ∧
          (getF v secPage Hdr.err).testBit Sec.eBadHmac = true ∧ exec i s = .next (respond r pvBadHmac 0 [] none v)) ∧
        (rqSession r.block = x.number → hmac384 x.mac (rqSigned r.block) = rqAuth r.block → rqCounter r.block ≤ x.last →
          exec i s = .next (respond r pvReplay 0 [] none u))))) ∧
  (∀ (r : PReq) (s u : State), let p := rqPayload r.block;
    (Sensitive 0x10 r s u → u.flash.hss < 2 ^ 20 → ∃ v x pay, exec (.sessionOpen true true) s = .next (respond r pvOk 0 pay none v) ∧
      v = { u with sessions := tblInsert r.src x u.sessions, freeCtr := v.freeCtr, flash := { u.flash with hss := u.flash.hss + 1 }, fld := v.fld, evtDue := v.evtDue } ∧
      x.opened = s.now ∧ x.life = max 60 (min (bNat p 128 4) 86400) ∧ x.last = 0 ∧ x.number ≠ 0 ∧ x.owner = sessionOwner u r.src ∧ pay.take 4 = leBytes 4 x.number) ∧
    (Sensitive 0x10 r s u → 2 ^ 20 ≤ u.flash.hss → exec (.sessionOpen true true) s = .next (respond r pvHssExhausted 0 [] none u)) ∧
    (Sensitive 0x11 r s u → Sound u → let a := bNat p 0 8; let n := bNat p 8 4; let img := memList u a n;
      (imageRange u r a n = false → ∀ i f, exec (.fwUpdate true true i f) s = .next (respond r pvOutOfSegment 0 [] none u)) ∧
      (imageRange u r a n = true → imageFormed img = true → u.fuses.svn ≤ bNat img 0x10 1 → ∀ f, ∃ t, exec (.fwUpdate true true true f) s = .next t ∧
        t = { u with busy := some ⟨r, img, false⟩, chans := t.chans, banks := t.banks, fld := t.fld, evtDue := t.evtDue }) ∧
      (imageRange u r a n = true → imageFormed img = true → bNat img 0x10 1 < u.fuses.svn → ∀ f, ∃ v, exec (.fwUpdate true true true f) s =
        .next (respond r pvRollback 0 [] none v) ∧ v = { u with chans := v.chans, banks := v.banks, fld := v.fld, evtDue := v.evtDue } ∧
          (getF v secPage Hdr.err).testBit Sec.eRollback = true) ∧
      (imageRange u r a n = true → ∀ i f, imageFormed img = false ∨ i = false → ∃ v, exec (.fwUpdate true true i f) s = .next (respond r pvBadImage 0 [] none v) ∧
        v = { u with chans := v.chans, banks := v.banks, fld := v.fld, evtDue := v.evtDue })) ∧
    (Sensitive 0x12 r s u → ∃ v, exec (.debugUnlock true true) s = .next (respond r pvOk 0 [] none v) ∧ v = { u with fld := v.fld } ∧
      getF v prvPage Prv.debugPending = 1 ∧ fldSame (onlyFields prvPage [(Prv.debugPending, 0)]) u v) ∧
    (Sensitive 0x13 r s u → exec (.gradeRead true true) s = .next (respond r pvOk 0 (gradePayload u) none u)) ∧
    (Sensitive 0x14 r s u → s.resetAt = none → exec (.deviceReset true true) s = .next (let t := respond r pvOk 0 [] none u;
      if r.src < 4 then { t with resetReq := some r.src } else { t with resetAt := some t.now })) ∧
    (Sensitive 0x15 r s u → let ok := beNat ((p.drop 96).take 4) = 8 ∧ beNat ((p.drop 100).take 4) = 4;
      (ok → exec (.setAuthority true true) s = .next (respond r pvOk 0 [] none { u with flash := { u.flash with auth := p } })) ∧
      (¬ ok → exec (.setAuthority true true) s = .next (respond r pvBadFormat 0 [] none u))) ∧
    (Sensitive 0x16 r s u → let es := configEntries p; let good := ∀ e ∈ es, (configTarget u e.1).isSome = true; let room := u.flash.config.length + es.length ≤ 4096;
      (good → room → ∃ v, exec (.setConfig true true) s = .next (respond r pvOk 0 [] none v) ∧
        netOnly { u with flash := v.flash, ifcs := v.ifcs, notices := v.notices } v ∧
        ((∀ e ∈ es, ∀ pg, configTarget u e.1 = some pg → pg.ty ≠ .port) → v = { u with flash := v.flash, fld := v.fld }) ∧
        (∀ i, i < 4 → u.boot.ports = true → ethCfg u (i / 2) ≠ ethCfg v (i / 2) → (getIfc v i).state = (if ifcPresent v i then ifTraining else ifDown) ∧
          (ifHold ≤ (getIfc u i).state → Notice.link i false ∈ v.notices ∧ ∀ c, (getPath (getConn v c) i).inUse = false)) ∧
        v.flash = { u.flash with config := u.flash.config ++ es, capDef := v.flash.capDef } ∧
        ∀ j, j < 12 → getF v secPage Sec.meas (36 + j) = leNat (((configDigest v).drop (4 * j)).take 4)) ∧
      (¬ good → exec (.setConfig true true) s = .next (respond r pvBadFormat 0 [] none u)) ∧
      (good → ¬ room → exec (.setConfig true true) s = .next (respond r pvFlashFail 0 [] none u)))) ∧
  (∀ (s : State) (b : Update) (ecdsa lms i : Bool), s.busy = some b → privetUp s = true →
    let mine := 1 - s.flash.slot; let idle := { s with busy := none };
    (b.broken = true → ∀ f, exec (.fwUpdate ecdsa lms i f) s = .next (respond b.req pvInterrupted 0 [] none idle)) ∧
    (b.broken = false → (∀ r, nextReq s = some r → rqCmd r.block ≠ 0x11) →
      (exec (.fwUpdate ecdsa lms i true) s = .next (respond b.req pvOk 0 [] none { idle with flash :=
        { s.flash with slotA := if mine = 0 then b.image else s.flash.slotA, validA := (mine == 0) || s.flash.validA,
                       slotB := if mine = 0 then s.flash.slotB else b.image, validB := (mine != 0) || s.flash.validB, slot := mine, trial := true, trials := 0 } })) ∧
      exec (.fwUpdate ecdsa lms i false) s = .next (respond b.req pvFlashFail 0 [] none { idle with flash :=
        { s.flash with validA := (mine != 0) && s.flash.validA, validB := (mine == 0) && s.flash.validB } }))) ∧
  (∀ (r : PReq) (x : Session) (s u : State), let p := rqPayload r.block; let ok := fun (v : State) (flags : Nat) (pay : List Byte) => respond r pvOk flags pay (some x.mac) v;
    (Routine 0x20 r x s u → exec .sessionClose s = .next (ok { u with sessions := tblErase r.src u.sessions } 0 [])) ∧
    (Routine 0x21 r x s u → let w := bNat p 0 4; let c := max 1500 (min w (fusedMax u));
      ∃ v, exec .setCap s = .next (ok v (if c = w then 0 else 1) (leBytes 4 c ++ leBytes 4 0)) ∧ v = { u with flash := { u.flash with lastCap := c }, fld := v.fld } ∧
        getF v pctPage Pct.cap = capNow v) ∧
    (Routine 0x22 r x s u → let ms := bNat p 0 2; let v := { u with sessions := tblInsert r.src { x with push := ms, pushAt := s.now } u.sessions };
      (ms = 0 → exec .telemetryRead s = .next (ok u 0 (telemetryBlock x u))) ∧
      (4 ≤ r.src → 10 ≤ ms → ms ≤ 10000 → exec .telemetryRead s = .next (ok v 0 (telemetryBlock x v))) ∧
      (ms ≠ 0 → (r.src < 4 ∨ ms < 10 ∨ 10000 < ms) → exec .telemetryRead s = .next (respond r pvBadFormat 0 [] none u))) ∧
    (Routine 0x23 r x s u → let n := bNat p 4 4;
      (1 ≤ n → n ≤ 200 → exec .journalRead s = .next (ok u 0 ((((u.flash.journal ++ u.jbuf).filter (fun j => decide (bNat p 0 4 ≤ j.seq))).take n).flatMap recordBytes))) ∧
      (n = 0 ∨ 200 < n → exec .journalRead s = .next (respond r pvBadFormat 0 [] none u))) ∧
    (Routine 0x24 r x s u → let n := bNat p 4 4;
      (1 ≤ n → n ≤ 400 → exec .logRead s = .next (ok u 0 (((u.dlog.drop (bNat p 0 4)).take n).flatMap defectBytes))) ∧
      (n = 0 ∨ 400 < n → exec .logRead s = .next (respond r pvBadFormat 0 [] none u))) ∧
    (Routine 0x25 r x s u → let g := bNat p 0 1; let own := bNat p 1 1; let n := bNat p 2 1; let bad := 64 < n ∨ n ≠ 0 ∧ n ≤ own;
      (∀ k, ¬ bad → ∃ v, exec (.steerTable (some k)) s = .next (ok v 0 []) ∧ v = { u with flash := { u.flash with steer := v.flash.steer } } ∧
        (n = 0 → getTab v g = none) ∧ (n ≠ 0 → ∃ tab, getTab v g = some tab ∧ tab.own = own ∧ tab.key = k ∧ tab.members.length = n ∧
          ∀ m, m < n → tab.members.getD m [] = [beNat ((p.drop (8 + 32 * m)).take 16), beNat ((p.drop (24 + 32 * m)).take 16)]) ∧
        ∀ o, o ≠ g → getTab v o = getTab u o) ∧
      (∀ k, bad → exec (.steerTable (some k)) s = .next (respond r pvBadFormat 0 [] none u)) ∧
      (∃ v, exec (.steerTable none) s = .next (respond r pvBadHmac 0 [] none v) ∧ v = { u with fld := v.fld, evtDue := v.evtDue })) ∧
    (Routine 0x26 r x s u → let i := bNat p 0 1; let dir := bNat p 1 1; let an := bNat p 2 1; let bad := 4 ≤ i ∨ 2 ≤ dir ∨ 4 ≤ an;
      (∀ k, ¬ bad → ∃ v, exec (.macsecKey (some k)) s = .next (ok v 0 []) ∧ v = { u with macKeys := v.macKeys, ifcs := v.ifcs, fld := v.fld } ∧
        (∀ m, tblFind m v.macKeys = if m = 8 * i + 4 * dir + an then some { ssci := bNat p 4 4, salt := (p.drop 8).take 12, key := k } else tblFind m u.macKeys) ∧
        (∀ o, getIfc v o = if o = i ∧ dir = 0 then { getIfc u o with txAn := some an } else getIfc u o) ∧ (dir = 0 → getF v (ethPage (i / 2)) Eth.rekey = 0)) ∧
      (∀ k, bad → exec (.macsecKey (some k)) s = .next (respond r pvBadFormat 0 [] none u)) ∧
      (∃ v, exec (.macsecKey none) s = .next (respond r pvBadHmac 0 [] none v) ∧ v = { u with fld := v.fld, evtDue := v.evtDue })) ∧
    (Routine 0x27 r x s u →
      (u.flash.hss < 2 ^ 20 → ∃ v sig, exec .attest s = .next (ok v 0 (attestReport p u.flash.hss v ++ sig)) ∧
        v = { u with freeCtr := v.freeCtr, flash := { u.flash with hss := u.flash.hss + 1 }, fld := v.fld, evtDue := v.evtDue } ∧ sig.length = 96 + 2964) ∧
      (2 ^ 20 ≤ u.flash.hss → exec .attest s = .next (respond r pvHssExhausted 0 [] none u)))) ∧
  (∀ (r : PReq) (code flags : Nat) (pay : List Byte) (key : Option (List Byte)) (s : State) (f : Flight), let full := responseBlock r.block code flags pay key;
    let rsp := dNat f.desc 0x20 8; r.src < 4 → requestFlight s r = some f → Sound s → let t := respond r code flags pay key s;
    (full.length ≤ dNat f.desc 0x28 4 → Completed (128 + r.src) f { status := if code = pvOk then stOk else stPrivet, info := code, detail := full.length } s t ∧
      ∀ a, memByte t a = if rsp ≤ a ∧ a < rsp + full.length then full.getD (a - rsp) 0 else memByte s a) ∧
    (dNat f.desc 0x28 4 < full.length → t.mem = s.mem ∧ Completed (128 + r.src) f
      { status := stPrivet, info := if code = pvOk then pvRspSmall else code, detail := if code = pvOk then full.length else 0 } s t)) ∧
  (∀ (k : ConnId) (s : State), let x := sessionOf s (4 + k.val);
    (∀ y, x = some y → privetUp s = true → y.push ≠ 0 → y.pushAt + y.push * msEdges ≤ s.now → ∃ t, exec (.telemetryPush k) s = .next t ∧
      netOnly { s with sessions := tblInsert (4 + k.val) { y with pushAt := s.now, count := y.count + 1 } s.sessions } t) ∧
    (x = none ∨ privetUp s = false → exec (.telemetryPush k) s = .next s)) ∧
  (∀ (src : Fin 4100) (s : State),
    (∀ x, tblFind src s.sessions = some x →
      (x.opened + x.life * secEdges ≤ s.now → exec (.sessionLifetime src) s = .next { s with sessions := tblErase src s.sessions }) ∧
      (s.now < x.opened + x.life * secEdges → exec (.sessionLifetime src) s = .next s)) ∧
    (tblFind src s.sessions = none → exec (.sessionLifetime src) s = .next s)) ∧
  (∀ (op : DebugOp) (s : State), (getF s prvPage Prv.debug = 0 → exec (.debugConnectorAccess op) s = .next s) ∧
    (getF s prvPage Prv.debug ≠ 0 →
      (∀ a pg, op = .regRead a → a.toNat < prvPage → a.toNat % 4 = 0 → pageAt s a.toNat = some pg →
        ((readWaits pg s).1 = true → ∃ t, exec (.debugConnectorAccess op) s = .next t ∧ t = { s with wakeReqs := t.wakeReqs }) ∧
        ((readWaits pg s).1 = false → ∃ t, exec (.debugConnectorAccess op) s = .next t ∧
        t = { s with fld := t.fld, banks := t.banks, evtLatch := t.evtLatch, outbox := s.outbox ++ [.debug (leBytes 4 (pageWord (fun _ => true) s pg (a.toNat % 4096)))] })) ∧
      (∀ a n, op = .memRead a n → debugMem s a.toNat n.val = true → anyAsleep s (debugCores a.toNat n.val) = true → ∃ t,
        exec (.debugConnectorAccess op) s = .next t ∧ t = { s with wakeReqs := t.wakeReqs }) ∧
      (∀ a n, op = .memRead a n → debugMem s a.toNat n.val = true → anyAsleep s (debugCores a.toNat n.val) = false → Sound s → 0 < n.val → ∃ t, exec (.debugConnectorAccess op) s = .next t ∧
        t = { s with fld := t.fld, chans := t.chans, banks := t.banks, evtDue := t.evtDue, outbox := s.outbox ++ [.debug (memList s a.toNat n.val)] }) ∧
      (∀ a bytes, op = .memWrite a bytes → debugMem s a.toNat bytes.length = true → anyAsleep s (debugCores a.toNat bytes.length) = true → ∃ t,
        exec (.debugConnectorAccess op) s = .next t ∧ t = { s with wakeReqs := t.wakeReqs }) ∧
      (∀ a bytes, op = .memWrite a bytes → debugMem s a.toNat bytes.length = true → anyAsleep s (debugCores a.toNat bytes.length) = false → Sound s → ∃ t, exec (.debugConnectorAccess op) s = .next t ∧
        t = { s with mem := t.mem, damage := t.damage, fld := t.fld, chans := t.chans, banks := t.banks, evtDue := t.evtDue } ∧ t.damage = [] ∧
        ∀ x, memByte t x = if a.toNat ≤ x ∧ x < a.toNat + bytes.length then bytes.getD (x - a.toNat) 0 else memByte s x) ∧
      (∀ a v pg, op = .regWrite a v → a.toNat < prvPage → a.toNat % 4096 = 0x10 → pageAt s a.toNat = some pg → pg.ty = .sequencer → pageAbsent s pg = false → ∃ t,
        exec (.debugConnectorAccess op) s = .next t ∧ t = { s with fld := t.fld } ∧ getF t pg.base Hdr.isr = clearBits (getF s pg.base Hdr.isr) v.toNat % 2 ^ 16 ∧
        fldSame (onlyFields pg.base [(Hdr.isr, 0)]) s t) ∧
      (∀ a v pg, op = .regWrite a v → pageAt s a.toNat = some pg → pageAbsent s pg = true → exec (.debugConnectorAccess op) s = .next s) ∧
      (∀ a, (op = .regRead a ∨ ∃ v, op = .regWrite a v) → prvPage ≤ a.toNat → exec (.debugConnectorAccess op) s = .next s))) ∧
  (∀ (off : Fin 256) (s : State), exec (.inventoryRead off) s = .next { s with outbox := s.outbox ++ [.inventory off ((inventory s.fuses).getD off 0)] })

/-! ## Registers, counters, the collector and tags (R294, R482 to R501, R512 to R516) -/

/-- Writes of a communicator's entry and of a page's header, counter reads, clears and windows, the collector's claim and sweep, and tag entries (R207, R294, R482, R486, R487,
R491 to R497, R499, R500, R511, R512, R514). -/
def Obligations.RegistersAndCounters : Prop :=
  (∀ (conn : ConnId) (c : Fin 64) (w : Fin 8) (v : Word32) (s : State), let i := Instr.commEntryWrite conn c w v; let n := v.toNat; let fs := commFields w;
    let starts := w.val = 0 ∧ n % 2 = 1; let same := ∀ f ∈ fs, bitsOf n f.lo f.len = getF s nePage f c;
    let busy := (∃ j ∈ s.jobs, j.comm = c) ∨ ∃ q, q < 32 ∧ ∃ f ∈ (getQueue s (96 + q)).flights, dNat f.desc 0x28 2 = c;
    (mayWriteComm s conn c w n = false → exec i s = .next s) ∧
    (mayWriteComm s conn c w n = true →
      (commValid s c = false → ∃ t, exec i s = .next t ∧ (∀ f ∈ fs, getF t nePage f c = bitsOf n f.lo f.len) ∧
        (starts → t = { s with fld := t.fld, cseq := t.cseq, p2pSeq := t.p2pSeq, readys := s.readys.filter (fun e => e.1 != c.val) } ∧ commValid t c = true ∧
          getF t nePage Ne.broken c = 0 ∧ (∀ k, tblGet 0 t.cseq k = if k = c then 0 else tblGet 0 s.cseq k) ∧
          (∀ k, tblFind k t.p2pSeq = if 4096 * c.val ≤ k ∧ k < 4096 * c.val + 4096 then none else tblFind k s.p2pSeq) ∧
          fldSame (onlyFields nePage (fs.map (fun f => (f, c.val)) ++ [(Ne.valid, c.val), (Ne.broken, c.val)])) s t) ∧
        (¬ starts → t = { s with fld := t.fld } ∧ fldSame (onlyFields nePage (fs.map (fun f => (f, c.val)))) s t)) ∧
      (commValid s c = true →
        (w.val = 0 → n % 2 = 0 → same → ¬ busy → ∃ t, exec i s = .next t ∧ t = { s with fld := t.fld } ∧ commValid t c = false ∧
          fldSame (onlyFields nePage [(Ne.valid, c.val)]) s t) ∧
        (w.val = 0 → n % 2 = 1 → same → exec i s = .next s) ∧
        (w.val ≠ 0 ∨ n % 2 = 1 ∧ ¬ same ∨ n % 2 = 0 ∧ busy → ∃ t, exec i s = .next t ∧ t = { s with fld := t.fld, evtDue := t.evtDue } ∧
          (getF t nePage Hdr.err).testBit Ne.eCfgErr = true ∧
          fldSame (onlyFields nePage [(Hdr.err, 0), (Hdr.errAddrLo, 0), (Hdr.errAddrHi, 0), (Hdr.errInfo, 0)]) s t)))) ∧
  (∀ (conn : ConnId) (a : BitVec 48) (s : State), let i := Instr.evtHoldRelease conn a;
    (pageAt s a.toNat = none → exec i s = .next s) ∧
    (∀ pg, pageAt s a.toNat = some pg →
      (¬ mayHead s conn pg → exec i s = .next s) ∧
      (mayHead s conn pg → ∃ t, exec i s = .next t ∧ t = { s with fld := t.fld, evtDue := t.evtDue } ∧ getF t pg.base Hdr.evtHold = 0 ∧
        fldSame (onlyFields pg.base [(Hdr.evtHold, 0)]) s t ∧
        (getF s pg.base Hdr.evtHold = 1 → enabledSet s pg.base ≠ 0 → pg.base ∈ t.evtDue ∧ ∀ b ∈ t.evtDue, b = pg.base ∨ b ∈ s.evtDue) ∧
        (getF s pg.base Hdr.evtHold ≠ 1 ∨ enabledSet s pg.base = 0 → t.evtDue = s.evtDue)))) ∧
  (∀ (conn : ConnId) (a : BitVec 48) (v : Word32) (s : State), let i := Instr.blkIenWrite conn a v;
    (pageAt s a.toNat = none → exec i s = .next s) ∧
    (∀ pg, pageAt s a.toNat = some pg → let now := v.toNat &&& enableMask pg.ty;
      (¬ mayHead s conn pg → exec i s = .next s) ∧
      (mayHead s conn pg → ∃ t, exec i s = .next t ∧ t = { s with fld := t.fld, evtDue := t.evtDue } ∧ getF t pg.base Hdr.ien = now ∧
        fldSame (onlyFields pg.base [(Hdr.ien, 0)]) s t ∧
        let rises := enabledSet t pg.base &&& clearBits now (getF s pg.base Hdr.ien);
        (rises ≠ 0 → getF s pg.base Hdr.evtHold ≠ 1 → pg.base ∈ t.evtDue ∧ ∀ b ∈ t.evtDue, b = pg.base ∨ b ∈ s.evtDue) ∧
        (rises = 0 ∨ getF s pg.base Hdr.evtHold = 1 → t.evtDue = s.evtDue)))) ∧
  (∀ (conn : ConnId) (b : BankId) (n : CounterSel) (s : State), let k := getBank s b;
    (mayReadBank s conn b = false → exec (.counterLoRead conn b n) s = .next s) ∧
    (mayReadBank s conn b = true → ∃ t, exec (.counterLoRead conn b n) s = .next t ∧ t = { s with banks := t.banks } ∧
      (∀ o, o ≠ b.val → getBank t o = getBank s o) ∧ getBank t b = { k with latch := (getBank t b).latch } ∧
      ∀ m, tblGet 0 (getBank t b).latch m = if m = selIndex n then bankCount s b (selIndex n) / 2 ^ 32 % 2 ^ 16 else tblGet 0 k.latch m) ∧
    (mayWriteBank s conn b = false → exec (.counterClr conn b) s = .next s) ∧
    (mayWriteBank s conn b = true → ∃ t, exec (.counterClr conn b) s = .next t ∧ t = { s with banks := t.banks } ∧
      (∀ o, o ≠ b.val → getBank t o = getBank s o) ∧ getBank t b = { k with prog := [], last := [], max := [] } ∧
      ∀ m, m < 8 ∨ 12 ≤ m → bankCount t b (4 + m) = 0)) ∧
  (∀ (b : BankId) (s : State), let k := getBank s b; let n := bankF0 s b / 2 ^ getF s (bankBase b) Cnt.bwLog2; let i := Instr.bandwidthWindowEnd b;
    (n = k.ended → exec i s = .next s) ∧
    (n ≠ k.ended → ∃ t, exec i s = .next t ∧ t = { s with banks := t.banks } ∧ (∀ o, o ≠ b.val → getBank t o = getBank s o) ∧
      let k' := getBank t b;
      (k.short = true → k' = { k with cur := [], ended := n, short := false }) ∧
      (k.short = false → k' = { k with cur := [], ended := n, last := k'.last, max := k'.max } ∧
        ∀ w, w < 12 → tblGet 0 k'.last w = tblGet 0 k.cur w % 2 ^ 48 ∧ tblGet 0 k'.max w = max (tblGet 0 k.max w) (tblGet 0 k.cur w % 2 ^ 48)))) ∧
  (∀ s : State, let page := fun (f : Field) (st : Nat) => getF s colPage f st;
    let due := page Col.en 0 ≠ 0 ∧ s.sweptAt + page Col.period 0 * 100 * usEdges ≤ s.now; let no := page Col.sweep 0;
    (¬ due → exec .collectorSweep s = .next s) ∧
    (due → (∀ st, st < 33 → page Col.strEn st ≠ 1) → ∃ t, exec .collectorSweep s = .next t ∧ t = { s with fld := t.fld, sweptAt := s.now } ∧
      getF t colPage Col.sweep = (no + 1) % 2 ^ 32 ∧ fldSame (onlyFields colPage [(Col.sweep, 0)]) s t) ∧
    ∀ st, due → st < 33 → page Col.strEn st = 1 → (∀ o, o < 33 → o ≠ st → page Col.strEn o ≠ 1) → page Col.tail st < 2 ^ 32 → page Col.head st < 2 ^ 32 →
      tblFind st s.owedEnd = none → let n := (streamBanks s st).length; let size := 2 ^ streamLog s st;
      let slot := fun i => page Col.baseHi st * 2 ^ 32 + page Col.baseLo st + 128 * ((page Col.tail st + i) % size);
      (ringDist (page Col.head st) (page Col.tail st) + n + 2 ≤ size → (∀ i, i < n + 2 → mereOwned s (streamHedge s st) (slot i) 128 = true) → Sound s →
        ∃ t, exec .collectorSweep s = .next t ∧
          t = { s with mem := t.mem, chans := t.chans, banks := t.banks, fld := t.fld, evtDue := t.evtDue, sweptAt := s.now } ∧
          getF t colPage Col.sweep = (no + 1) % 2 ^ 32 ∧ getF t colPage Col.tail st = (page Col.tail st + n + 2) % 2 ^ 32 ∧
          (∀ x, (∀ i, i < n + 2 → x < slot i ∨ slot i + 128 ≤ x) → memByte t x = memByte s x) ∧
          (∀ i, i < n + 2 → memNat t (slot i) 1 = (if i = 0 ∨ i = n + 1 then 0xFF else bankType ((streamBanks s st).getD (i - 1) 0)) ∧
            memNat t (slot i + 1) 1 % 2 = ((page Col.tail st + i) % 2 ^ 32 / size + 1) % 2 ∧ memNat t (slot i + 1) 1 / 8 % 2 = 0 ∧
            memNat t (slot i + 1) 1 / 16 = (if i = n + 1 then 1 else 0) ∧
            memNat t (slot i + 2) 2 = (if i = 0 ∨ i = n + 1 then st else bankNo ((streamBanks s st).getD (i - 1) 0)) ∧
            memNat t (slot i + 4) 4 = no % 2 ^ 32)) ∧
      (streamRoom s st = false → ∃ t, exec .collectorSweep s = .next t ∧ t = { s with fld := t.fld, sweptAt := s.now, owedEnd := t.owedEnd } ∧
        getF t colPage Col.dropCnt st = (page Col.dropCnt st + n + 1) % 2 ^ 32 ∧ getF t colPage Col.tail st = page Col.tail st ∧ tblFind st t.owedEnd = some [no] ∧
        fldSame (onlyFields colPage [(Col.sweep, 0), (Col.dropCnt, st)]) s t)) ∧
  (∀ (conn : ConnId) (h : HedgeId) (s : State), let held := getF s colPage Col.devHeld = 1 ∨ ownsHedge s conn h = false;
    (held → exec (.colDevClaim conn h) s = .next s) ∧
    (¬ held → ∃ t, exec (.colDevClaim conn h) s = .next t ∧ t = { s with fld := t.fld } ∧ getF t colPage Col.devHeld = 1 ∧ getF t colPage Col.devHedge = h ∧
      fldSame (onlyFields colPage [(Col.devHeld, 0), (Col.devHedge, 0)]) s t)) ∧
  (∀ (c : CoreId) (ready start fin wb : Word32) (s : State), let i := Instr.tagWb c ready start fin wb; let rises := ready.toNat ≤ start.toNat ∧ start.toNat ≤ fin.toNat ∧ fin.toNat ≤ wb.toNat;
    let n := getF s (tagPage c) Tag.next;
    (tblFind c s.tagged = none ∨ ¬ rises → exec i s = .next s) ∧
    (∀ x, tblFind c s.tagged = some x → rises → n < 64 → ∃ t, exec i s = .next t ∧ t = { s with fld := t.fld, tagged := tblErase c s.tagged } ∧
      let word := fun e => getF t (tagPage c) Tag.entryWord (8 * n + e);
      word 0 = x.at_ % 2 ^ 32 ∧ word 1 = x.at_ / 2 ^ 32 % 2 ^ 16 ∧
      word 2 = (x.pc + x.cls * 2 ^ 17 + x.op * 2 ^ 20 + 2 ^ 25 + (if 0xFFFFFE < wb.toNat then 2 ^ 26 else 0)) % 2 ^ 32 ∧
      word 3 = min ready.toNat 0xFFFFFE ∧ word 4 = min start.toNat 0xFFFFFE ∧ word 5 = min fin.toNat 0xFFFFFE ∧ word 6 = min wb.toNat 0xFFFFFE ∧
      word 7 = x.entry % 2 ^ 32 ∧ getF t (tagPage c) Tag.next = (n + 1) % 64 ∧ (n = 63 → getF t (tagPage c) Tag.wrapped = 1) ∧
      (n ≠ 63 → getF t (tagPage c) Tag.wrapped = getF s (tagPage c) Tag.wrapped) ∧
      fldSame (onlyFields (tagPage c) ((List.range 8).map (fun e => (Tag.entryWord, 8 * n + e)) ++ [(Tag.next, 0), (Tag.wrapped, 0)])) s t))

/-! ## The machine -/

/-- Every step keeps memory in its canonical form: addresses strictly rising, and no entry equal to what an unlisted address reads as. -/
def Obligations.MemoryCanonical : Prop :=
  ∀ s t : State, Memory.wf s.mem = true → step s = .next t → Memory.wf t.mem = true

/-- After power-on every register field holds the value its layout gives (R8), no command waits, memory is canonical and lists nothing, every plot is unbound and every
core OFF (R104), RTR_CFG reads zero and every skid buffer holds 3 flits (R192, R193), no channel of Mere is in the interleave, every Spring is OFF with its cluster's clock in PARK, the bulk cells are off, bring-up has not begun, no queue
is enabled and no connection is open; and an empty queue of commands advances time (log entries 1 and 2 name the values the spec does not give). -/
def Obligations.ResetState : Prop :=
  let s := State.reset;
  s.pending = [] ∧ Memory.wf s.mem = true ∧ (∀ a, memByte s a = 0) ∧ (∀ base f i, getF s base f i = f.rst) ∧
    (∀ c, (getCore s c).mode = .off) ∧ (∀ h, (getHedge s h).state = .unbound ∧ (getHedge s h).owner = none) ∧
    (∀ p, routerTable s p = List.replicate 32 0 ∧ rtrCfg s p = 0) ∧ (∀ p q, (getSkid s p q).occ = 3) ∧ activeChans s = [] ∧ (∀ cl, sprState s cl = sprOff ∧ clkState s cl = 0) ∧
    getF s inpPage Inp.bulkEn = 0 ∧ s.boot.begun = false ∧ (∀ q, getF s (quePage q) Que.en = 0) ∧ (∀ k, (getConn s k).state = .free) ∧
    ∃ t, step s = .next t ∧ t.now = s.now + 1 ∧ t.pending = [] ∧ t.mem = []
end

