-- ==== Sys2Proof/Laws/Table.lean ====
section
/-!
SUPPORT. The laws of sparse tables and of memory: a read after a write, the frame of a write, and that every operation keeps
the canonical form. They hold of every list, canonical or not, where they speak of reads.
-/
namespace Sys2Proof.Machine

variable {α : Type}

theorem tblFind_insert (k k' : Nat) (v : α) (t : Tbl α) :
    tblFind k' (tblInsert k v t) = if k' = k then some v else tblFind k' t := by
  fun_induction tblInsert <;> grind [tblFind]

theorem tblFind_erase (k k' : Nat) (t : Tbl α) :
    tblFind k' (tblErase k t) = if k' = k then none else tblFind k' t := by
  induction t with
  | nil => grind [tblErase, tblFind]
  | cons e t ih => cases e; grind [tblErase, tblFind]

theorem tblGet_insert (d : α) (k k' : Nat) (v : α) (t : Tbl α) :
    tblGet d (tblInsert k v t) k' = if k' = k then v else tblGet d t k' := by
  grind [tblGet, tblFind_insert]

theorem tblGet_erase (d : α) (k k' : Nat) (t : Tbl α) :
    tblGet d (tblErase k t) k' = if k' = k then d else tblGet d t k' := by
  grind [tblGet, tblFind_erase]

theorem tblFind_put_other [DecidableEq α] (d : α) (k k' : Nat) (v : α) (t : Tbl α) (h : k' ≠ k) :
    tblFind k' (tblPut d t k v) = tblFind k' t := by
  grind [tblPut, tblFind_insert, tblFind_erase]

/-- Read after write, and the frame of a write. -/
theorem tblGet_put [DecidableEq α] (d : α) (k k' : Nat) (v : α) (t : Tbl α) :
    tblGet d (tblPut d t k v) k' = if k' = k then v else tblGet d t k' := by
  grind [tblPut, tblGet_insert, tblGet_erase]

@[simp] theorem tblGet_put_same [DecidableEq α] (d : α) (k : Nat) (v : α) (t : Tbl α) :
    tblGet d (tblPut d t k v) k = v := by simp [tblGet_put]

theorem tblGet_put_other [DecidableEq α] (d : α) (k k' : Nat) (v : α) (t : Tbl α) (h : k' ≠ k) :
    tblGet d (tblPut d t k v) k' = tblGet d t k' := by simp [tblGet_put, h]

/-! ## The canonical form -/

theorem tblAbove_mono (lo lo' : Nat) (t : Tbl α) (h : lo' ≤ lo) (ht : tblAbove lo t = true) : tblAbove lo' t = true := by
  cases t <;> grind [tblAbove]

theorem tblAbove_insert (lo k : Nat) (v : α) (t : Tbl α) (hk : lo ≤ k) (ht : tblAbove lo t = true) :
    tblAbove lo (tblInsert k v t) = true := by
  fun_induction tblInsert generalizing lo <;> grind [tblAbove]

theorem tblAbove_filter (p : Nat × α → Bool) (lo : Nat) (t : Tbl α) (ht : tblAbove lo t = true) :
    tblAbove lo (t.filter p) = true := by
  fun_induction tblAbove lo t with
  | case1 => rfl
  | case2 lo a v t ih =>
    have h := tblAbove_mono (a + 1) lo (t.filter p)
    grind [tblAbove]

theorem mem_tblInsert (k : Nat) (v : α) (t : Tbl α) (e : Nat × α) (h : e ∈ tblInsert k v t) : e = (k, v) ∨ e ∈ t := by
  fun_induction tblInsert <;> grind

theorem tblWf_filter [DecidableEq α] (d : α) (p : Nat × α → Bool) (t : Tbl α) (ht : tblWf d t = true) :
    tblWf d (t.filter p) = true := by
  grind [tblWf, tblAbove_filter]

/-- A write keeps the canonical form. -/
theorem tblWf_put [DecidableEq α] (d : α) (k : Nat) (v : α) (t : Tbl α) (ht : tblWf d t = true) :
    tblWf d (tblPut d t k v) = true := by
  by_cases hv : v = d
  · grind [tblPut, tblErase, tblWf_filter]
  · have h := mem_tblInsert k v t
    simp only [tblWf, tblPut, if_neg hv, Bool.and_eq_true, List.all_eq_true, decide_eq_true_eq] at ht ⊢
    grind [tblAbove_insert]

/-- So does dropping a range. -/
theorem tblWf_drop [DecidableEq α] (d : α) (lo hi : Nat) (t : Tbl α) (ht : tblWf d t = true) :
    tblWf d (tblDrop lo hi t) = true := tblWf_filter d _ t ht

/-! ## Memory -/

theorem memPut_wf (m : List Host.Cell) (a : Nat) (b : Byte) (h : tblWf memDflt m = true) : tblWf memDflt (memPut m a b) = true :=
  tblWf_put memDflt a b m h

theorem memPutList_wf (m : List Host.Cell) (a : Nat) (bs : List Byte) (h : tblWf memDflt m = true) :
    tblWf memDflt (memPutList m a bs) = true := by
  fun_induction memPutList <;> grind [memPut_wf]

/-- Every write of memory keeps its canonical form. -/
theorem memWrite_wf (a : Nat) (bs : List Byte) (s : State) (h : tblWf memDflt s.mem = true) :
    tblWf memDflt (memWrite a bs s).mem = true := memPutList_wf s.mem a bs h

theorem memZero_wf (lo hi : Nat) (s : State) (h : tblWf memDflt s.mem = true) : tblWf memDflt (memZero lo hi s).mem = true :=
  tblWf_drop memDflt lo hi s.mem h

theorem tblGet_memPutList (m : List Host.Cell) (a : Nat) (bs : List Byte) (x : Nat) :
    tblGet memDflt (memPutList m a bs) x = if a ≤ x ∧ x < a + bs.length then bs.getD (x - a) memDflt else tblGet memDflt m x := by
  fun_induction memPutList with
  | case1 m a => rw [if_neg (by simp only [List.length_nil]; omega)]
  | case2 m a b t ih =>
    rw [ih, memPut, tblGet_put]
    grind

/-- What a write of memory does to every byte: its own bytes, and no other. -/
theorem memByte_memWrite (a : Nat) (bs : List Byte) (s : State) (x : Nat) :
    memByte (memWrite a bs s) x = if a ≤ x ∧ x < a + bs.length then bs.getD (x - a) memDflt else memByte s x :=
  tblGet_memPutList s.mem a bs x

end Sys2Proof.Machine
end

