-- ==== Sys2Proof/Laws/State.lean ====
section
/-!
SUPPORT. The laws of the state's updates: for each update and each field it does not change, that field is as before; and for each
record of units, what a read after a write gives.
-/
namespace Sys2Proof.Machine

/-! ## Reads after writes -/

@[simp] theorem getCore_putCore : ∀ n x s, getCore (putCore n x s) n = x := fun n x s => tblGet_put_same (α := Core) {} n x s.cores

theorem getCore_putCore_other : ∀ n m x s, m ≠ n → getCore (putCore n x s) m = getCore s m :=
  fun n m x s => tblGet_put_other (α := Core) {} n m x s.cores

@[simp] theorem getHedge_putHedge : ∀ n x s, getHedge (putHedge n x s) n = x := fun n x s => tblGet_put_same (α := Hedge) {} n x s.hedges

theorem getHedge_putHedge_other : ∀ n m x s, m ≠ n → getHedge (putHedge n x s) m = getHedge s m :=
  fun n m x s => tblGet_put_other (α := Hedge) {} n m x s.hedges

@[simp] theorem getQueue_putQueue : ∀ n x s, getQueue (putQueue n x s) n = x := fun n x s => tblGet_put_same (α := Queue) {} n x s.queues

theorem getQueue_putQueue_other : ∀ n m x s, m ≠ n → getQueue (putQueue n x s) m = getQueue s m :=
  fun n m x s => tblGet_put_other (α := Queue) {} n m x s.queues

@[simp] theorem getBank_putBank : ∀ n x s, getBank (putBank n x s) n = x := fun n x s => tblGet_put_same (α := Bank) {} n x s.banks

theorem getBank_putBank_other : ∀ n m x s, m ≠ n → getBank (putBank n x s) m = getBank s m :=
  fun n m x s => tblGet_put_other (α := Bank) {} n m x s.banks

@[simp] theorem getChan_putChan : ∀ n x s, getChan (putChan n x s) n = x := fun n x s => tblGet_put_same (α := Chan) {} n x s.chans

theorem getChan_putChan_other : ∀ n m x s, m ≠ n → getChan (putChan n x s) m = getChan s m :=
  fun n m x s => tblGet_put_other (α := Chan) {} n m x s.chans

@[simp] theorem getClus_putClus : ∀ n x s, getClus (putClus n x s) n = x := fun n x s => tblGet_put_same (α := Cluster) {} n x s.clus

theorem getClus_putClus_other : ∀ n m x s, m ≠ n → getClus (putClus n x s) m = getClus s m :=
  fun n m x s => tblGet_put_other (α := Cluster) {} n m x s.clus

@[simp] theorem getConn_putConn : ∀ n x s, getConn (putConn n x s) n = x := fun n x s => tblGet_put_same (α := Conn) {} n x s.conns

theorem getConn_putConn_other : ∀ n m x s, m ≠ n → getConn (putConn n x s) m = getConn s m :=
  fun n m x s => tblGet_put_other (α := Conn) {} n m x s.conns

@[simp] theorem getIfc_putIfc : ∀ n x s, getIfc (putIfc n x s) n = x := fun n x s => tblGet_put_same (α := Ifc) {} n x s.ifcs

theorem getIfc_putIfc_other : ∀ n m x s, m ≠ n → getIfc (putIfc n x s) m = getIfc s m :=
  fun n m x s => tblGet_put_other (α := Ifc) {} n m x s.ifcs


/-- A field written reads as what was written, cut to its width. -/
@[simp] theorem getF_setF (b : Nat) (f : Field) (v : Nat) (s : State) (i : Nat) : getF (setF b f v s i) b f i = v % 2 ^ f.len :=
  tblGet_put_same _ _ _ _

/-- A field with another key reads as before. -/
theorem getF_setF_other (b : Nat) (f : Field) (v : Nat) (s : State) (i b' : Nat) (f' : Field) (i' : Nat)
    (h : fkey b' f' i' ≠ fkey b f i) : getF (setF b f v s i) b' f' i' = getF s b' f' i' := by
  show tblGet f'.rst (tblPut f.rst s.fld (fkey b f i) (v % 2 ^ f.len)) (fkey b' f' i') = tblGet f'.rst s.fld (fkey b' f' i')
  unfold tblGet
  rw [tblFind_put_other _ _ _ _ _ h]


/-! ## setF -/

@[simp] theorem setF_mem : ∀ b f v s i, (setF b f v s i).mem = s.mem := fun _ _ _ _ _ => rfl
@[simp] theorem setF_damage : ∀ b f v s i, (setF b f v s i).damage = s.damage := fun _ _ _ _ _ => rfl
@[simp] theorem setF_cores : ∀ b f v s i, (setF b f v s i).cores = s.cores := fun _ _ _ _ _ => rfl
@[simp] theorem setF_packets : ∀ b f v s i, (setF b f v s i).packets = s.packets := fun _ _ _ _ _ => rfl
@[simp] theorem setF_nextPkt : ∀ b f v s i, (setF b f v s i).nextPkt = s.nextPkt := fun _ _ _ _ _ => rfl
@[simp] theorem setF_flits : ∀ b f v s i, (setF b f v s i).flits = s.flits := fun _ _ _ _ _ => rfl
@[simp] theorem setF_rest : ∀ b f v s i, (setF b f v s i).rest = s.rest := fun _ _ _ _ _ => rfl
@[simp] theorem setF_rtrAll : ∀ b f v s i, (setF b f v s i).rtrAll = s.rtrAll := fun _ _ _ _ _ => rfl
@[simp] theorem setF_rtrOwn : ∀ b f v s i, (setF b f v s i).rtrOwn = s.rtrOwn := fun _ _ _ _ _ => rfl
@[simp] theorem setF_detour : ∀ b f v s i, (setF b f v s i).detour = s.detour := fun _ _ _ _ _ => rfl
@[simp] theorem setF_hedges : ∀ b f v s i, (setF b f v s i).hedges = s.hedges := fun _ _ _ _ _ => rfl
@[simp] theorem setF_queues : ∀ b f v s i, (setF b f v s i).queues = s.queues := fun _ _ _ _ _ => rfl
@[simp] theorem setF_evt : ∀ b f v s i, (setF b f v s i).evt = s.evt := fun _ _ _ _ _ => rfl
@[simp] theorem setF_evtStage : ∀ b f v s i, (setF b f v s i).evtStage = s.evtStage := fun _ _ _ _ _ => rfl
@[simp] theorem setF_evtLatch : ∀ b f v s i, (setF b f v s i).evtLatch = s.evtLatch := fun _ _ _ _ _ => rfl
@[simp] theorem setF_ucs : ∀ b f v s i, (setF b f v s i).ucs = s.ucs := fun _ _ _ _ _ => rfl
@[simp] theorem setF_evtDue : ∀ b f v s i, (setF b f v s i).evtDue = s.evtDue := fun _ _ _ _ _ => rfl
@[simp] theorem setF_notices : ∀ b f v s i, (setF b f v s i).notices = s.notices := fun _ _ _ _ _ => rfl
@[simp] theorem setF_holes : ∀ b f v s i, (setF b f v s i).holes = s.holes := fun _ _ _ _ _ => rfl
@[simp] theorem setF_disabled : ∀ b f v s i, (setF b f v s i).disabled = s.disabled := fun _ _ _ _ _ => rfl
@[simp] theorem setF_lost : ∀ b f v s i, (setF b f v s i).lost = s.lost := fun _ _ _ _ _ => rfl
@[simp] theorem setF_pinned : ∀ b f v s i, (setF b f v s i).pinned = s.pinned := fun _ _ _ _ _ => rfl
@[simp] theorem setF_planned : ∀ b f v s i, (setF b f v s i).planned = s.planned := fun _ _ _ _ _ => rfl
@[simp] theorem setF_failed : ∀ b f v s i, (setF b f v s i).failed = s.failed := fun _ _ _ _ _ => rfl
@[simp] theorem setF_shifts : ∀ b f v s i, (setF b f v s i).shifts = s.shifts := fun _ _ _ _ _ => rfl
@[simp] theorem setF_doomed : ∀ b f v s i, (setF b f v s i).doomed = s.doomed := fun _ _ _ _ _ => rfl
@[simp] theorem setF_retired : ∀ b f v s i, (setF b f v s i).retired = s.retired := fun _ _ _ _ _ => rfl
@[simp] theorem setF_wakeReqs : ∀ b f v s i, (setF b f v s i).wakeReqs = s.wakeReqs := fun _ _ _ _ _ => rfl
@[simp] theorem setF_clus : ∀ b f v s i, (setF b f v s i).clus = s.clus := fun _ _ _ _ _ => rfl
@[simp] theorem setF_halfSlips : ∀ b f v s i, (setF b f v s i).halfSlips = s.halfSlips := fun _ _ _ _ _ => rfl
@[simp] theorem setF_skids : ∀ b f v s i, (setF b f v s i).skids = s.skids := fun _ _ _ _ _ => rfl
@[simp] theorem setF_linkSent : ∀ b f v s i, (setF b f v s i).linkSent = s.linkSent := fun _ _ _ _ _ => rfl
@[simp] theorem setF_mapHold : ∀ b f v s i, (setF b f v s i).mapHold = s.mapHold := fun _ _ _ _ _ => rfl
@[simp] theorem setF_mapped : ∀ b f v s i, (setF b f v s i).mapped = s.mapped := fun _ _ _ _ _ => rfl
@[simp] theorem setF_pwr : ∀ b f v s i, (setF b f v s i).pwr = s.pwr := fun _ _ _ _ _ => rfl
@[simp] theorem setF_deadCells : ∀ b f v s i, (setF b f v s i).deadCells = s.deadCells := fun _ _ _ _ _ => rfl
@[simp] theorem setF_grants : ∀ b f v s i, (setF b f v s i).grants = s.grants := fun _ _ _ _ _ => rfl
@[simp] theorem setF_reports : ∀ b f v s i, (setF b f v s i).reports = s.reports := fun _ _ _ _ _ => rfl
@[simp] theorem setF_waited : ∀ b f v s i, (setF b f v s i).waited = s.waited := fun _ _ _ _ _ => rfl
@[simp] theorem setF_dry : ∀ b f v s i, (setF b f v s i).dry = s.dry := fun _ _ _ _ _ => rfl
@[simp] theorem setF_nextGrant : ∀ b f v s i, (setF b f v s i).nextGrant = s.nextGrant := fun _ _ _ _ _ => rfl
@[simp] theorem setF_fuses : ∀ b f v s i, (setF b f v s i).fuses = s.fuses := fun _ _ _ _ _ => rfl
@[simp] theorem setF_flash : ∀ b f v s i, (setF b f v s i).flash = s.flash := fun _ _ _ _ _ => rfl
@[simp] theorem setF_sessions : ∀ b f v s i, (setF b f v s i).sessions = s.sessions := fun _ _ _ _ _ => rfl
@[simp] theorem setF_preqs : ∀ b f v s i, (setF b f v s i).preqs = s.preqs := fun _ _ _ _ _ => rfl
@[simp] theorem setF_served : ∀ b f v s i, (setF b f v s i).served = s.served := fun _ _ _ _ _ => rfl
@[simp] theorem setF_busy : ∀ b f v s i, (setF b f v s i).busy = s.busy := fun _ _ _ _ _ => rfl
@[simp] theorem setF_frags : ∀ b f v s i, (setF b f v s i).frags = s.frags := fun _ _ _ _ _ => rfl
@[simp] theorem setF_resetAt : ∀ b f v s i, (setF b f v s i).resetAt = s.resetAt := fun _ _ _ _ _ => rfl
@[simp] theorem setF_resetReq : ∀ b f v s i, (setF b f v s i).resetReq = s.resetReq := fun _ _ _ _ _ => rfl
@[simp] theorem setF_macKeys : ∀ b f v s i, (setF b f v s i).macKeys = s.macKeys := fun _ _ _ _ _ => rfl
@[simp] theorem setF_boot : ∀ b f v s i, (setF b f v s i).boot = s.boot := fun _ _ _ _ _ => rfl
@[simp] theorem setF_tests : ∀ b f v s i, (setF b f v s i).tests = s.tests := fun _ _ _ _ _ => rfl
@[simp] theorem setF_testedAt : ∀ b f v s i, (setF b f v s i).testedAt = s.testedAt := fun _ _ _ _ _ => rfl
@[simp] theorem setF_idleAt : ∀ b f v s i, (setF b f v s i).idleAt = s.idleAt := fun _ _ _ _ _ => rfl
@[simp] theorem setF_retest : ∀ b f v s i, (setF b f v s i).retest = s.retest := fun _ _ _ _ _ => rfl
@[simp] theorem setF_splits : ∀ b f v s i, (setF b f v s i).splits = s.splits := fun _ _ _ _ _ => rfl
@[simp] theorem setF_fresh : ∀ b f v s i, (setF b f v s i).fresh = s.fresh := fun _ _ _ _ _ => rfl
@[simp] theorem setF_linkErrs : ∀ b f v s i, (setF b f v s i).linkErrs = s.linkErrs := fun _ _ _ _ _ => rfl
@[simp] theorem setF_suspects : ∀ b f v s i, (setF b f v s i).suspects = s.suspects := fun _ _ _ _ _ => rfl
@[simp] theorem setF_hbAt : ∀ b f v s i, (setF b f v s i).hbAt = s.hbAt := fun _ _ _ _ _ => rfl
@[simp] theorem setF_hbQuiet : ∀ b f v s i, (setF b f v s i).hbQuiet = s.hbQuiet := fun _ _ _ _ _ => rfl
@[simp] theorem setF_siteUc : ∀ b f v s i, (setF b f v s i).siteUc = s.siteUc := fun _ _ _ _ _ => rfl
@[simp] theorem setF_siteCe : ∀ b f v s i, (setF b f v s i).siteCe = s.siteCe := fun _ _ _ _ _ => rfl
@[simp] theorem setF_chans : ∀ b f v s i, (setF b f v s i).chans = s.chans := fun _ _ _ _ _ => rfl
@[simp] theorem setF_mcLast : ∀ b f v s i, (setF b f v s i).mcLast = s.mcLast := fun _ _ _ _ _ => rfl
@[simp] theorem setF_filled : ∀ b f v s i, (setF b f v s i).filled = s.filled := fun _ _ _ _ _ => rfl
@[simp] theorem setF_dlog : ∀ b f v s i, (setF b f v s i).dlog = s.dlog := fun _ _ _ _ _ => rfl
@[simp] theorem setF_outbox : ∀ b f v s i, (setF b f v s i).outbox = s.outbox := fun _ _ _ _ _ => rfl
@[simp] theorem setF_banks : ∀ b f v s i, (setF b f v s i).banks = s.banks := fun _ _ _ _ _ => rfl
@[simp] theorem setF_engCyc : ∀ b f v s i, (setF b f v s i).engCyc = s.engCyc := fun _ _ _ _ _ => rfl
@[simp] theorem setF_tagged : ∀ b f v s i, (setF b f v s i).tagged = s.tagged := fun _ _ _ _ _ => rfl
@[simp] theorem setF_sweptAt : ∀ b f v s i, (setF b f v s i).sweptAt = s.sweptAt := fun _ _ _ _ _ => rfl
@[simp] theorem setF_owedEnd : ∀ b f v s i, (setF b f v s i).owedEnd = s.owedEnd := fun _ _ _ _ _ => rfl
@[simp] theorem setF_conns : ∀ b f v s i, (setF b f v s i).conns = s.conns := fun _ _ _ _ _ => rfl
@[simp] theorem setF_ifcs : ∀ b f v s i, (setF b f v s i).ifcs = s.ifcs := fun _ _ _ _ _ => rfl
@[simp] theorem setF_jobs : ∀ b f v s i, (setF b f v s i).jobs = s.jobs := fun _ _ _ _ _ => rfl
@[simp] theorem setF_cseq : ∀ b f v s i, (setF b f v s i).cseq = s.cseq := fun _ _ _ _ _ => rfl
@[simp] theorem setF_readys : ∀ b f v s i, (setF b f v s i).readys = s.readys := fun _ _ _ _ _ => rfl
@[simp] theorem setF_syns : ∀ b f v s i, (setF b f v s i).syns = s.syns := fun _ _ _ _ _ => rfl
@[simp] theorem setF_noConnAt : ∀ b f v s i, (setF b f v s i).noConnAt = s.noConnAt := fun _ _ _ _ _ => rfl
@[simp] theorem setF_jbuf : ∀ b f v s i, (setF b f v s i).jbuf = s.jbuf := fun _ _ _ _ _ => rfl
@[simp] theorem setF_jover : ∀ b f v s i, (setF b f v s i).jover = s.jover := fun _ _ _ _ _ => rfl
@[simp] theorem setF_ceAgg : ∀ b f v s i, (setF b f v s i).ceAgg = s.ceAgg := fun _ _ _ _ _ => rfl
@[simp] theorem setF_powerOn : ∀ b f v s i, (setF b f v s i).powerOn = s.powerOn := fun _ _ _ _ _ => rfl
@[simp] theorem setF_bootNo : ∀ b f v s i, (setF b f v s i).bootNo = s.bootNo := fun _ _ _ _ _ => rfl
@[simp] theorem setF_bootAt : ∀ b f v s i, (setF b f v s i).bootAt = s.bootAt := fun _ _ _ _ _ => rfl
@[simp] theorem setF_now : ∀ b f v s i, (setF b f v s i).now = s.now := fun _ _ _ _ _ => rfl
@[simp] theorem setF_resetEdge : ∀ b f v s i, (setF b f v s i).resetEdge = s.resetEdge := fun _ _ _ _ _ => rfl
@[simp] theorem setF_freeCtr : ∀ b f v s i, (setF b f v s i).freeCtr = s.freeCtr := fun _ _ _ _ _ => rfl
@[simp] theorem setF_pending : ∀ b f v s i, (setF b f v s i).pending = s.pending := fun _ _ _ _ _ => rfl

@[simp] theorem getCore_setF : ∀ b f v s i n, getCore (setF b f v s i) n = getCore s n := fun _ _ _ _ _ _ => rfl
@[simp] theorem getHedge_setF : ∀ b f v s i n, getHedge (setF b f v s i) n = getHedge s n := fun _ _ _ _ _ _ => rfl
@[simp] theorem getQueue_setF : ∀ b f v s i n, getQueue (setF b f v s i) n = getQueue s n := fun _ _ _ _ _ _ => rfl
@[simp] theorem getBank_setF : ∀ b f v s i n, getBank (setF b f v s i) n = getBank s n := fun _ _ _ _ _ _ => rfl
@[simp] theorem getChan_setF : ∀ b f v s i n, getChan (setF b f v s i) n = getChan s n := fun _ _ _ _ _ _ => rfl
@[simp] theorem getClus_setF : ∀ b f v s i n, getClus (setF b f v s i) n = getClus s n := fun _ _ _ _ _ _ => rfl
@[simp] theorem getConn_setF : ∀ b f v s i n, getConn (setF b f v s i) n = getConn s n := fun _ _ _ _ _ _ => rfl
@[simp] theorem getIfc_setF : ∀ b f v s i n, getIfc (setF b f v s i) n = getIfc s n := fun _ _ _ _ _ _ => rfl

/-! ## putCore -/

@[simp] theorem putCore_fld : ∀ c k s, (putCore c k s).fld = s.fld := fun _ _ _ => rfl
@[simp] theorem putCore_mem : ∀ c k s, (putCore c k s).mem = s.mem := fun _ _ _ => rfl
@[simp] theorem putCore_damage : ∀ c k s, (putCore c k s).damage = s.damage := fun _ _ _ => rfl
@[simp] theorem putCore_packets : ∀ c k s, (putCore c k s).packets = s.packets := fun _ _ _ => rfl
@[simp] theorem putCore_nextPkt : ∀ c k s, (putCore c k s).nextPkt = s.nextPkt := fun _ _ _ => rfl
@[simp] theorem putCore_flits : ∀ c k s, (putCore c k s).flits = s.flits := fun _ _ _ => rfl
@[simp] theorem putCore_rest : ∀ c k s, (putCore c k s).rest = s.rest := fun _ _ _ => rfl
@[simp] theorem putCore_rtrAll : ∀ c k s, (putCore c k s).rtrAll = s.rtrAll := fun _ _ _ => rfl
@[simp] theorem putCore_rtrOwn : ∀ c k s, (putCore c k s).rtrOwn = s.rtrOwn := fun _ _ _ => rfl
@[simp] theorem putCore_detour : ∀ c k s, (putCore c k s).detour = s.detour := fun _ _ _ => rfl
@[simp] theorem putCore_hedges : ∀ c k s, (putCore c k s).hedges = s.hedges := fun _ _ _ => rfl
@[simp] theorem putCore_queues : ∀ c k s, (putCore c k s).queues = s.queues := fun _ _ _ => rfl
@[simp] theorem putCore_evt : ∀ c k s, (putCore c k s).evt = s.evt := fun _ _ _ => rfl
@[simp] theorem putCore_evtStage : ∀ c k s, (putCore c k s).evtStage = s.evtStage := fun _ _ _ => rfl
@[simp] theorem putCore_evtLatch : ∀ c k s, (putCore c k s).evtLatch = s.evtLatch := fun _ _ _ => rfl
@[simp] theorem putCore_ucs : ∀ c k s, (putCore c k s).ucs = s.ucs := fun _ _ _ => rfl
@[simp] theorem putCore_evtDue : ∀ c k s, (putCore c k s).evtDue = s.evtDue := fun _ _ _ => rfl
@[simp] theorem putCore_notices : ∀ c k s, (putCore c k s).notices = s.notices := fun _ _ _ => rfl
@[simp] theorem putCore_holes : ∀ c k s, (putCore c k s).holes = s.holes := fun _ _ _ => rfl
@[simp] theorem putCore_disabled : ∀ c k s, (putCore c k s).disabled = s.disabled := fun _ _ _ => rfl
@[simp] theorem putCore_lost : ∀ c k s, (putCore c k s).lost = s.lost := fun _ _ _ => rfl
@[simp] theorem putCore_pinned : ∀ c k s, (putCore c k s).pinned = s.pinned := fun _ _ _ => rfl
@[simp] theorem putCore_planned : ∀ c k s, (putCore c k s).planned = s.planned := fun _ _ _ => rfl
@[simp] theorem putCore_failed : ∀ c k s, (putCore c k s).failed = s.failed := fun _ _ _ => rfl
@[simp] theorem putCore_shifts : ∀ c k s, (putCore c k s).shifts = s.shifts := fun _ _ _ => rfl
@[simp] theorem putCore_doomed : ∀ c k s, (putCore c k s).doomed = s.doomed := fun _ _ _ => rfl
@[simp] theorem putCore_retired : ∀ c k s, (putCore c k s).retired = s.retired := fun _ _ _ => rfl
@[simp] theorem putCore_wakeReqs : ∀ c k s, (putCore c k s).wakeReqs = s.wakeReqs := fun _ _ _ => rfl
@[simp] theorem putCore_clus : ∀ c k s, (putCore c k s).clus = s.clus := fun _ _ _ => rfl
@[simp] theorem putCore_halfSlips : ∀ c k s, (putCore c k s).halfSlips = s.halfSlips := fun _ _ _ => rfl
@[simp] theorem putCore_skids : ∀ c k s, (putCore c k s).skids = s.skids := fun _ _ _ => rfl
@[simp] theorem putCore_linkSent : ∀ c k s, (putCore c k s).linkSent = s.linkSent := fun _ _ _ => rfl
@[simp] theorem putCore_mapHold : ∀ c k s, (putCore c k s).mapHold = s.mapHold := fun _ _ _ => rfl
@[simp] theorem putCore_mapped : ∀ c k s, (putCore c k s).mapped = s.mapped := fun _ _ _ => rfl
@[simp] theorem putCore_pwr : ∀ c k s, (putCore c k s).pwr = s.pwr := fun _ _ _ => rfl
@[simp] theorem putCore_deadCells : ∀ c k s, (putCore c k s).deadCells = s.deadCells := fun _ _ _ => rfl
@[simp] theorem putCore_grants : ∀ c k s, (putCore c k s).grants = s.grants := fun _ _ _ => rfl
@[simp] theorem putCore_reports : ∀ c k s, (putCore c k s).reports = s.reports := fun _ _ _ => rfl
@[simp] theorem putCore_waited : ∀ c k s, (putCore c k s).waited = s.waited := fun _ _ _ => rfl
@[simp] theorem putCore_dry : ∀ c k s, (putCore c k s).dry = s.dry := fun _ _ _ => rfl
@[simp] theorem putCore_nextGrant : ∀ c k s, (putCore c k s).nextGrant = s.nextGrant := fun _ _ _ => rfl
@[simp] theorem putCore_fuses : ∀ c k s, (putCore c k s).fuses = s.fuses := fun _ _ _ => rfl
@[simp] theorem putCore_flash : ∀ c k s, (putCore c k s).flash = s.flash := fun _ _ _ => rfl
@[simp] theorem putCore_sessions : ∀ c k s, (putCore c k s).sessions = s.sessions := fun _ _ _ => rfl
@[simp] theorem putCore_preqs : ∀ c k s, (putCore c k s).preqs = s.preqs := fun _ _ _ => rfl
@[simp] theorem putCore_served : ∀ c k s, (putCore c k s).served = s.served := fun _ _ _ => rfl
@[simp] theorem putCore_busy : ∀ c k s, (putCore c k s).busy = s.busy := fun _ _ _ => rfl
@[simp] theorem putCore_frags : ∀ c k s, (putCore c k s).frags = s.frags := fun _ _ _ => rfl
@[simp] theorem putCore_resetAt : ∀ c k s, (putCore c k s).resetAt = s.resetAt := fun _ _ _ => rfl
@[simp] theorem putCore_resetReq : ∀ c k s, (putCore c k s).resetReq = s.resetReq := fun _ _ _ => rfl
@[simp] theorem putCore_macKeys : ∀ c k s, (putCore c k s).macKeys = s.macKeys := fun _ _ _ => rfl
@[simp] theorem putCore_boot : ∀ c k s, (putCore c k s).boot = s.boot := fun _ _ _ => rfl
@[simp] theorem putCore_tests : ∀ c k s, (putCore c k s).tests = s.tests := fun _ _ _ => rfl
@[simp] theorem putCore_testedAt : ∀ c k s, (putCore c k s).testedAt = s.testedAt := fun _ _ _ => rfl
@[simp] theorem putCore_idleAt : ∀ c k s, (putCore c k s).idleAt = s.idleAt := fun _ _ _ => rfl
@[simp] theorem putCore_retest : ∀ c k s, (putCore c k s).retest = s.retest := fun _ _ _ => rfl
@[simp] theorem putCore_splits : ∀ c k s, (putCore c k s).splits = s.splits := fun _ _ _ => rfl
@[simp] theorem putCore_fresh : ∀ c k s, (putCore c k s).fresh = s.fresh := fun _ _ _ => rfl
@[simp] theorem putCore_linkErrs : ∀ c k s, (putCore c k s).linkErrs = s.linkErrs := fun _ _ _ => rfl
@[simp] theorem putCore_suspects : ∀ c k s, (putCore c k s).suspects = s.suspects := fun _ _ _ => rfl
@[simp] theorem putCore_hbAt : ∀ c k s, (putCore c k s).hbAt = s.hbAt := fun _ _ _ => rfl
@[simp] theorem putCore_hbQuiet : ∀ c k s, (putCore c k s).hbQuiet = s.hbQuiet := fun _ _ _ => rfl
@[simp] theorem putCore_siteUc : ∀ c k s, (putCore c k s).siteUc = s.siteUc := fun _ _ _ => rfl
@[simp] theorem putCore_siteCe : ∀ c k s, (putCore c k s).siteCe = s.siteCe := fun _ _ _ => rfl
@[simp] theorem putCore_chans : ∀ c k s, (putCore c k s).chans = s.chans := fun _ _ _ => rfl
@[simp] theorem putCore_mcLast : ∀ c k s, (putCore c k s).mcLast = s.mcLast := fun _ _ _ => rfl
@[simp] theorem putCore_filled : ∀ c k s, (putCore c k s).filled = s.filled := fun _ _ _ => rfl
@[simp] theorem putCore_dlog : ∀ c k s, (putCore c k s).dlog = s.dlog := fun _ _ _ => rfl
@[simp] theorem putCore_outbox : ∀ c k s, (putCore c k s).outbox = s.outbox := fun _ _ _ => rfl
@[simp] theorem putCore_banks : ∀ c k s, (putCore c k s).banks = s.banks := fun _ _ _ => rfl
@[simp] theorem putCore_engCyc : ∀ c k s, (putCore c k s).engCyc = s.engCyc := fun _ _ _ => rfl
@[simp] theorem putCore_tagged : ∀ c k s, (putCore c k s).tagged = s.tagged := fun _ _ _ => rfl
@[simp] theorem putCore_sweptAt : ∀ c k s, (putCore c k s).sweptAt = s.sweptAt := fun _ _ _ => rfl
@[simp] theorem putCore_owedEnd : ∀ c k s, (putCore c k s).owedEnd = s.owedEnd := fun _ _ _ => rfl
@[simp] theorem putCore_conns : ∀ c k s, (putCore c k s).conns = s.conns := fun _ _ _ => rfl
@[simp] theorem putCore_ifcs : ∀ c k s, (putCore c k s).ifcs = s.ifcs := fun _ _ _ => rfl
@[simp] theorem putCore_jobs : ∀ c k s, (putCore c k s).jobs = s.jobs := fun _ _ _ => rfl
@[simp] theorem putCore_cseq : ∀ c k s, (putCore c k s).cseq = s.cseq := fun _ _ _ => rfl
@[simp] theorem putCore_readys : ∀ c k s, (putCore c k s).readys = s.readys := fun _ _ _ => rfl
@[simp] theorem putCore_syns : ∀ c k s, (putCore c k s).syns = s.syns := fun _ _ _ => rfl
@[simp] theorem putCore_noConnAt : ∀ c k s, (putCore c k s).noConnAt = s.noConnAt := fun _ _ _ => rfl
@[simp] theorem putCore_jbuf : ∀ c k s, (putCore c k s).jbuf = s.jbuf := fun _ _ _ => rfl
@[simp] theorem putCore_jover : ∀ c k s, (putCore c k s).jover = s.jover := fun _ _ _ => rfl
@[simp] theorem putCore_ceAgg : ∀ c k s, (putCore c k s).ceAgg = s.ceAgg := fun _ _ _ => rfl
@[simp] theorem putCore_powerOn : ∀ c k s, (putCore c k s).powerOn = s.powerOn := fun _ _ _ => rfl
@[simp] theorem putCore_bootNo : ∀ c k s, (putCore c k s).bootNo = s.bootNo := fun _ _ _ => rfl
@[simp] theorem putCore_bootAt : ∀ c k s, (putCore c k s).bootAt = s.bootAt := fun _ _ _ => rfl
@[simp] theorem putCore_now : ∀ c k s, (putCore c k s).now = s.now := fun _ _ _ => rfl
@[simp] theorem putCore_resetEdge : ∀ c k s, (putCore c k s).resetEdge = s.resetEdge := fun _ _ _ => rfl
@[simp] theorem putCore_freeCtr : ∀ c k s, (putCore c k s).freeCtr = s.freeCtr := fun _ _ _ => rfl
@[simp] theorem putCore_pending : ∀ c k s, (putCore c k s).pending = s.pending := fun _ _ _ => rfl

@[simp] theorem getHedge_putCore : ∀ c k s n, getHedge (putCore c k s) n = getHedge s n := fun _ _ _ _ => rfl
@[simp] theorem getQueue_putCore : ∀ c k s n, getQueue (putCore c k s) n = getQueue s n := fun _ _ _ _ => rfl
@[simp] theorem getBank_putCore : ∀ c k s n, getBank (putCore c k s) n = getBank s n := fun _ _ _ _ => rfl
@[simp] theorem getChan_putCore : ∀ c k s n, getChan (putCore c k s) n = getChan s n := fun _ _ _ _ => rfl
@[simp] theorem getClus_putCore : ∀ c k s n, getClus (putCore c k s) n = getClus s n := fun _ _ _ _ => rfl
@[simp] theorem getConn_putCore : ∀ c k s n, getConn (putCore c k s) n = getConn s n := fun _ _ _ _ => rfl
@[simp] theorem getIfc_putCore : ∀ c k s n, getIfc (putCore c k s) n = getIfc s n := fun _ _ _ _ => rfl
@[simp] theorem getF_putCore : ∀ c k s d g j, getF (putCore c k s) d g j = getF s d g j := fun _ _ _ _ _ _ => rfl

/-! ## putHedge -/

@[simp] theorem putHedge_fld : ∀ h k s, (putHedge h k s).fld = s.fld := fun _ _ _ => rfl
@[simp] theorem putHedge_mem : ∀ h k s, (putHedge h k s).mem = s.mem := fun _ _ _ => rfl
@[simp] theorem putHedge_damage : ∀ h k s, (putHedge h k s).damage = s.damage := fun _ _ _ => rfl
@[simp] theorem putHedge_cores : ∀ h k s, (putHedge h k s).cores = s.cores := fun _ _ _ => rfl
@[simp] theorem putHedge_packets : ∀ h k s, (putHedge h k s).packets = s.packets := fun _ _ _ => rfl
@[simp] theorem putHedge_nextPkt : ∀ h k s, (putHedge h k s).nextPkt = s.nextPkt := fun _ _ _ => rfl
@[simp] theorem putHedge_flits : ∀ h k s, (putHedge h k s).flits = s.flits := fun _ _ _ => rfl
@[simp] theorem putHedge_rest : ∀ h k s, (putHedge h k s).rest = s.rest := fun _ _ _ => rfl
@[simp] theorem putHedge_rtrAll : ∀ h k s, (putHedge h k s).rtrAll = s.rtrAll := fun _ _ _ => rfl
@[simp] theorem putHedge_rtrOwn : ∀ h k s, (putHedge h k s).rtrOwn = s.rtrOwn := fun _ _ _ => rfl
@[simp] theorem putHedge_detour : ∀ h k s, (putHedge h k s).detour = s.detour := fun _ _ _ => rfl
@[simp] theorem putHedge_queues : ∀ h k s, (putHedge h k s).queues = s.queues := fun _ _ _ => rfl
@[simp] theorem putHedge_evt : ∀ h k s, (putHedge h k s).evt = s.evt := fun _ _ _ => rfl
@[simp] theorem putHedge_evtStage : ∀ h k s, (putHedge h k s).evtStage = s.evtStage := fun _ _ _ => rfl
@[simp] theorem putHedge_evtLatch : ∀ h k s, (putHedge h k s).evtLatch = s.evtLatch := fun _ _ _ => rfl
@[simp] theorem putHedge_ucs : ∀ h k s, (putHedge h k s).ucs = s.ucs := fun _ _ _ => rfl
@[simp] theorem putHedge_evtDue : ∀ h k s, (putHedge h k s).evtDue = s.evtDue := fun _ _ _ => rfl
@[simp] theorem putHedge_notices : ∀ h k s, (putHedge h k s).notices = s.notices := fun _ _ _ => rfl
@[simp] theorem putHedge_holes : ∀ h k s, (putHedge h k s).holes = s.holes := fun _ _ _ => rfl
@[simp] theorem putHedge_disabled : ∀ h k s, (putHedge h k s).disabled = s.disabled := fun _ _ _ => rfl
@[simp] theorem putHedge_lost : ∀ h k s, (putHedge h k s).lost = s.lost := fun _ _ _ => rfl
@[simp] theorem putHedge_pinned : ∀ h k s, (putHedge h k s).pinned = s.pinned := fun _ _ _ => rfl
@[simp] theorem putHedge_planned : ∀ h k s, (putHedge h k s).planned = s.planned := fun _ _ _ => rfl
@[simp] theorem putHedge_failed : ∀ h k s, (putHedge h k s).failed = s.failed := fun _ _ _ => rfl
@[simp] theorem putHedge_shifts : ∀ h k s, (putHedge h k s).shifts = s.shifts := fun _ _ _ => rfl
@[simp] theorem putHedge_doomed : ∀ h k s, (putHedge h k s).doomed = s.doomed := fun _ _ _ => rfl
@[simp] theorem putHedge_retired : ∀ h k s, (putHedge h k s).retired = s.retired := fun _ _ _ => rfl
@[simp] theorem putHedge_wakeReqs : ∀ h k s, (putHedge h k s).wakeReqs = s.wakeReqs := fun _ _ _ => rfl
@[simp] theorem putHedge_clus : ∀ h k s, (putHedge h k s).clus = s.clus := fun _ _ _ => rfl
@[simp] theorem putHedge_halfSlips : ∀ h k s, (putHedge h k s).halfSlips = s.halfSlips := fun _ _ _ => rfl
@[simp] theorem putHedge_skids : ∀ h k s, (putHedge h k s).skids = s.skids := fun _ _ _ => rfl
@[simp] theorem putHedge_linkSent : ∀ h k s, (putHedge h k s).linkSent = s.linkSent := fun _ _ _ => rfl
@[simp] theorem putHedge_mapHold : ∀ h k s, (putHedge h k s).mapHold = s.mapHold := fun _ _ _ => rfl
@[simp] theorem putHedge_mapped : ∀ h k s, (putHedge h k s).mapped = s.mapped := fun _ _ _ => rfl
@[simp] theorem putHedge_pwr : ∀ h k s, (putHedge h k s).pwr = s.pwr := fun _ _ _ => rfl
@[simp] theorem putHedge_deadCells : ∀ h k s, (putHedge h k s).deadCells = s.deadCells := fun _ _ _ => rfl
@[simp] theorem putHedge_grants : ∀ h k s, (putHedge h k s).grants = s.grants := fun _ _ _ => rfl
@[simp] theorem putHedge_reports : ∀ h k s, (putHedge h k s).reports = s.reports := fun _ _ _ => rfl
@[simp] theorem putHedge_waited : ∀ h k s, (putHedge h k s).waited = s.waited := fun _ _ _ => rfl
@[simp] theorem putHedge_dry : ∀ h k s, (putHedge h k s).dry = s.dry := fun _ _ _ => rfl
@[simp] theorem putHedge_nextGrant : ∀ h k s, (putHedge h k s).nextGrant = s.nextGrant := fun _ _ _ => rfl
@[simp] theorem putHedge_fuses : ∀ h k s, (putHedge h k s).fuses = s.fuses := fun _ _ _ => rfl
@[simp] theorem putHedge_flash : ∀ h k s, (putHedge h k s).flash = s.flash := fun _ _ _ => rfl
@[simp] theorem putHedge_sessions : ∀ h k s, (putHedge h k s).sessions = s.sessions := fun _ _ _ => rfl
@[simp] theorem putHedge_preqs : ∀ h k s, (putHedge h k s).preqs = s.preqs := fun _ _ _ => rfl
@[simp] theorem putHedge_served : ∀ h k s, (putHedge h k s).served = s.served := fun _ _ _ => rfl
@[simp] theorem putHedge_busy : ∀ h k s, (putHedge h k s).busy = s.busy := fun _ _ _ => rfl
@[simp] theorem putHedge_frags : ∀ h k s, (putHedge h k s).frags = s.frags := fun _ _ _ => rfl
@[simp] theorem putHedge_resetAt : ∀ h k s, (putHedge h k s).resetAt = s.resetAt := fun _ _ _ => rfl
@[simp] theorem putHedge_resetReq : ∀ h k s, (putHedge h k s).resetReq = s.resetReq := fun _ _ _ => rfl
@[simp] theorem putHedge_macKeys : ∀ h k s, (putHedge h k s).macKeys = s.macKeys := fun _ _ _ => rfl
@[simp] theorem putHedge_boot : ∀ h k s, (putHedge h k s).boot = s.boot := fun _ _ _ => rfl
@[simp] theorem putHedge_tests : ∀ h k s, (putHedge h k s).tests = s.tests := fun _ _ _ => rfl
@[simp] theorem putHedge_testedAt : ∀ h k s, (putHedge h k s).testedAt = s.testedAt := fun _ _ _ => rfl
@[simp] theorem putHedge_idleAt : ∀ h k s, (putHedge h k s).idleAt = s.idleAt := fun _ _ _ => rfl
@[simp] theorem putHedge_retest : ∀ h k s, (putHedge h k s).retest = s.retest := fun _ _ _ => rfl
@[simp] theorem putHedge_splits : ∀ h k s, (putHedge h k s).splits = s.splits := fun _ _ _ => rfl
@[simp] theorem putHedge_fresh : ∀ h k s, (putHedge h k s).fresh = s.fresh := fun _ _ _ => rfl
@[simp] theorem putHedge_linkErrs : ∀ h k s, (putHedge h k s).linkErrs = s.linkErrs := fun _ _ _ => rfl
@[simp] theorem putHedge_suspects : ∀ h k s, (putHedge h k s).suspects = s.suspects := fun _ _ _ => rfl
@[simp] theorem putHedge_hbAt : ∀ h k s, (putHedge h k s).hbAt = s.hbAt := fun _ _ _ => rfl
@[simp] theorem putHedge_hbQuiet : ∀ h k s, (putHedge h k s).hbQuiet = s.hbQuiet := fun _ _ _ => rfl
@[simp] theorem putHedge_siteUc : ∀ h k s, (putHedge h k s).siteUc = s.siteUc := fun _ _ _ => rfl
@[simp] theorem putHedge_siteCe : ∀ h k s, (putHedge h k s).siteCe = s.siteCe := fun _ _ _ => rfl
@[simp] theorem putHedge_chans : ∀ h k s, (putHedge h k s).chans = s.chans := fun _ _ _ => rfl
@[simp] theorem putHedge_mcLast : ∀ h k s, (putHedge h k s).mcLast = s.mcLast := fun _ _ _ => rfl
@[simp] theorem putHedge_filled : ∀ h k s, (putHedge h k s).filled = s.filled := fun _ _ _ => rfl
@[simp] theorem putHedge_dlog : ∀ h k s, (putHedge h k s).dlog = s.dlog := fun _ _ _ => rfl
@[simp] theorem putHedge_outbox : ∀ h k s, (putHedge h k s).outbox = s.outbox := fun _ _ _ => rfl
@[simp] theorem putHedge_banks : ∀ h k s, (putHedge h k s).banks = s.banks := fun _ _ _ => rfl
@[simp] theorem putHedge_engCyc : ∀ h k s, (putHedge h k s).engCyc = s.engCyc := fun _ _ _ => rfl
@[simp] theorem putHedge_tagged : ∀ h k s, (putHedge h k s).tagged = s.tagged := fun _ _ _ => rfl
@[simp] theorem putHedge_sweptAt : ∀ h k s, (putHedge h k s).sweptAt = s.sweptAt := fun _ _ _ => rfl
@[simp] theorem putHedge_owedEnd : ∀ h k s, (putHedge h k s).owedEnd = s.owedEnd := fun _ _ _ => rfl
@[simp] theorem putHedge_conns : ∀ h k s, (putHedge h k s).conns = s.conns := fun _ _ _ => rfl
@[simp] theorem putHedge_ifcs : ∀ h k s, (putHedge h k s).ifcs = s.ifcs := fun _ _ _ => rfl
@[simp] theorem putHedge_jobs : ∀ h k s, (putHedge h k s).jobs = s.jobs := fun _ _ _ => rfl
@[simp] theorem putHedge_cseq : ∀ h k s, (putHedge h k s).cseq = s.cseq := fun _ _ _ => rfl
@[simp] theorem putHedge_readys : ∀ h k s, (putHedge h k s).readys = s.readys := fun _ _ _ => rfl
@[simp] theorem putHedge_syns : ∀ h k s, (putHedge h k s).syns = s.syns := fun _ _ _ => rfl
@[simp] theorem putHedge_noConnAt : ∀ h k s, (putHedge h k s).noConnAt = s.noConnAt := fun _ _ _ => rfl
@[simp] theorem putHedge_jbuf : ∀ h k s, (putHedge h k s).jbuf = s.jbuf := fun _ _ _ => rfl
@[simp] theorem putHedge_jover : ∀ h k s, (putHedge h k s).jover = s.jover := fun _ _ _ => rfl
@[simp] theorem putHedge_ceAgg : ∀ h k s, (putHedge h k s).ceAgg = s.ceAgg := fun _ _ _ => rfl
@[simp] theorem putHedge_powerOn : ∀ h k s, (putHedge h k s).powerOn = s.powerOn := fun _ _ _ => rfl
@[simp] theorem putHedge_bootNo : ∀ h k s, (putHedge h k s).bootNo = s.bootNo := fun _ _ _ => rfl
@[simp] theorem putHedge_bootAt : ∀ h k s, (putHedge h k s).bootAt = s.bootAt := fun _ _ _ => rfl
@[simp] theorem putHedge_now : ∀ h k s, (putHedge h k s).now = s.now := fun _ _ _ => rfl
@[simp] theorem putHedge_resetEdge : ∀ h k s, (putHedge h k s).resetEdge = s.resetEdge := fun _ _ _ => rfl
@[simp] theorem putHedge_freeCtr : ∀ h k s, (putHedge h k s).freeCtr = s.freeCtr := fun _ _ _ => rfl
@[simp] theorem putHedge_pending : ∀ h k s, (putHedge h k s).pending = s.pending := fun _ _ _ => rfl

@[simp] theorem getCore_putHedge : ∀ h k s n, getCore (putHedge h k s) n = getCore s n := fun _ _ _ _ => rfl
@[simp] theorem getQueue_putHedge : ∀ h k s n, getQueue (putHedge h k s) n = getQueue s n := fun _ _ _ _ => rfl
@[simp] theorem getBank_putHedge : ∀ h k s n, getBank (putHedge h k s) n = getBank s n := fun _ _ _ _ => rfl
@[simp] theorem getChan_putHedge : ∀ h k s n, getChan (putHedge h k s) n = getChan s n := fun _ _ _ _ => rfl
@[simp] theorem getClus_putHedge : ∀ h k s n, getClus (putHedge h k s) n = getClus s n := fun _ _ _ _ => rfl
@[simp] theorem getConn_putHedge : ∀ h k s n, getConn (putHedge h k s) n = getConn s n := fun _ _ _ _ => rfl
@[simp] theorem getIfc_putHedge : ∀ h k s n, getIfc (putHedge h k s) n = getIfc s n := fun _ _ _ _ => rfl
@[simp] theorem getF_putHedge : ∀ h k s d g j, getF (putHedge h k s) d g j = getF s d g j := fun _ _ _ _ _ _ => rfl

/-! ## putQueue -/

@[simp] theorem putQueue_fld : ∀ q k s, (putQueue q k s).fld = s.fld := fun _ _ _ => rfl
@[simp] theorem putQueue_mem : ∀ q k s, (putQueue q k s).mem = s.mem := fun _ _ _ => rfl
@[simp] theorem putQueue_damage : ∀ q k s, (putQueue q k s).damage = s.damage := fun _ _ _ => rfl
@[simp] theorem putQueue_cores : ∀ q k s, (putQueue q k s).cores = s.cores := fun _ _ _ => rfl
@[simp] theorem putQueue_packets : ∀ q k s, (putQueue q k s).packets = s.packets := fun _ _ _ => rfl
@[simp] theorem putQueue_nextPkt : ∀ q k s, (putQueue q k s).nextPkt = s.nextPkt := fun _ _ _ => rfl
@[simp] theorem putQueue_flits : ∀ q k s, (putQueue q k s).flits = s.flits := fun _ _ _ => rfl
@[simp] theorem putQueue_rest : ∀ q k s, (putQueue q k s).rest = s.rest := fun _ _ _ => rfl
@[simp] theorem putQueue_rtrAll : ∀ q k s, (putQueue q k s).rtrAll = s.rtrAll := fun _ _ _ => rfl
@[simp] theorem putQueue_rtrOwn : ∀ q k s, (putQueue q k s).rtrOwn = s.rtrOwn := fun _ _ _ => rfl
@[simp] theorem putQueue_detour : ∀ q k s, (putQueue q k s).detour = s.detour := fun _ _ _ => rfl
@[simp] theorem putQueue_hedges : ∀ q k s, (putQueue q k s).hedges = s.hedges := fun _ _ _ => rfl
@[simp] theorem putQueue_evt : ∀ q k s, (putQueue q k s).evt = s.evt := fun _ _ _ => rfl
@[simp] theorem putQueue_evtStage : ∀ q k s, (putQueue q k s).evtStage = s.evtStage := fun _ _ _ => rfl
@[simp] theorem putQueue_evtLatch : ∀ q k s, (putQueue q k s).evtLatch = s.evtLatch := fun _ _ _ => rfl
@[simp] theorem putQueue_ucs : ∀ q k s, (putQueue q k s).ucs = s.ucs := fun _ _ _ => rfl
@[simp] theorem putQueue_evtDue : ∀ q k s, (putQueue q k s).evtDue = s.evtDue := fun _ _ _ => rfl
@[simp] theorem putQueue_notices : ∀ q k s, (putQueue q k s).notices = s.notices := fun _ _ _ => rfl
@[simp] theorem putQueue_holes : ∀ q k s, (putQueue q k s).holes = s.holes := fun _ _ _ => rfl
@[simp] theorem putQueue_disabled : ∀ q k s, (putQueue q k s).disabled = s.disabled := fun _ _ _ => rfl
@[simp] theorem putQueue_lost : ∀ q k s, (putQueue q k s).lost = s.lost := fun _ _ _ => rfl
@[simp] theorem putQueue_pinned : ∀ q k s, (putQueue q k s).pinned = s.pinned := fun _ _ _ => rfl
@[simp] theorem putQueue_planned : ∀ q k s, (putQueue q k s).planned = s.planned := fun _ _ _ => rfl
@[simp] theorem putQueue_failed : ∀ q k s, (putQueue q k s).failed = s.failed := fun _ _ _ => rfl
@[simp] theorem putQueue_shifts : ∀ q k s, (putQueue q k s).shifts = s.shifts := fun _ _ _ => rfl
@[simp] theorem putQueue_doomed : ∀ q k s, (putQueue q k s).doomed = s.doomed := fun _ _ _ => rfl
@[simp] theorem putQueue_retired : ∀ q k s, (putQueue q k s).retired = s.retired := fun _ _ _ => rfl
@[simp] theorem putQueue_wakeReqs : ∀ q k s, (putQueue q k s).wakeReqs = s.wakeReqs := fun _ _ _ => rfl
@[simp] theorem putQueue_clus : ∀ q k s, (putQueue q k s).clus = s.clus := fun _ _ _ => rfl
@[simp] theorem putQueue_halfSlips : ∀ q k s, (putQueue q k s).halfSlips = s.halfSlips := fun _ _ _ => rfl
@[simp] theorem putQueue_skids : ∀ q k s, (putQueue q k s).skids = s.skids := fun _ _ _ => rfl
@[simp] theorem putQueue_linkSent : ∀ q k s, (putQueue q k s).linkSent = s.linkSent := fun _ _ _ => rfl
@[simp] theorem putQueue_mapHold : ∀ q k s, (putQueue q k s).mapHold = s.mapHold := fun _ _ _ => rfl
@[simp] theorem putQueue_mapped : ∀ q k s, (putQueue q k s).mapped = s.mapped := fun _ _ _ => rfl
@[simp] theorem putQueue_pwr : ∀ q k s, (putQueue q k s).pwr = s.pwr := fun _ _ _ => rfl
@[simp] theorem putQueue_deadCells : ∀ q k s, (putQueue q k s).deadCells = s.deadCells := fun _ _ _ => rfl
@[simp] theorem putQueue_grants : ∀ q k s, (putQueue q k s).grants = s.grants := fun _ _ _ => rfl
@[simp] theorem putQueue_reports : ∀ q k s, (putQueue q k s).reports = s.reports := fun _ _ _ => rfl
@[simp] theorem putQueue_waited : ∀ q k s, (putQueue q k s).waited = s.waited := fun _ _ _ => rfl
@[simp] theorem putQueue_dry : ∀ q k s, (putQueue q k s).dry = s.dry := fun _ _ _ => rfl
@[simp] theorem putQueue_nextGrant : ∀ q k s, (putQueue q k s).nextGrant = s.nextGrant := fun _ _ _ => rfl
@[simp] theorem putQueue_fuses : ∀ q k s, (putQueue q k s).fuses = s.fuses := fun _ _ _ => rfl
@[simp] theorem putQueue_flash : ∀ q k s, (putQueue q k s).flash = s.flash := fun _ _ _ => rfl
@[simp] theorem putQueue_sessions : ∀ q k s, (putQueue q k s).sessions = s.sessions := fun _ _ _ => rfl
@[simp] theorem putQueue_preqs : ∀ q k s, (putQueue q k s).preqs = s.preqs := fun _ _ _ => rfl
@[simp] theorem putQueue_served : ∀ q k s, (putQueue q k s).served = s.served := fun _ _ _ => rfl
@[simp] theorem putQueue_busy : ∀ q k s, (putQueue q k s).busy = s.busy := fun _ _ _ => rfl
@[simp] theorem putQueue_frags : ∀ q k s, (putQueue q k s).frags = s.frags := fun _ _ _ => rfl
@[simp] theorem putQueue_resetAt : ∀ q k s, (putQueue q k s).resetAt = s.resetAt := fun _ _ _ => rfl
@[simp] theorem putQueue_resetReq : ∀ q k s, (putQueue q k s).resetReq = s.resetReq := fun _ _ _ => rfl
@[simp] theorem putQueue_macKeys : ∀ q k s, (putQueue q k s).macKeys = s.macKeys := fun _ _ _ => rfl
@[simp] theorem putQueue_boot : ∀ q k s, (putQueue q k s).boot = s.boot := fun _ _ _ => rfl
@[simp] theorem putQueue_tests : ∀ q k s, (putQueue q k s).tests = s.tests := fun _ _ _ => rfl
@[simp] theorem putQueue_testedAt : ∀ q k s, (putQueue q k s).testedAt = s.testedAt := fun _ _ _ => rfl
@[simp] theorem putQueue_idleAt : ∀ q k s, (putQueue q k s).idleAt = s.idleAt := fun _ _ _ => rfl
@[simp] theorem putQueue_retest : ∀ q k s, (putQueue q k s).retest = s.retest := fun _ _ _ => rfl
@[simp] theorem putQueue_splits : ∀ q k s, (putQueue q k s).splits = s.splits := fun _ _ _ => rfl
@[simp] theorem putQueue_fresh : ∀ q k s, (putQueue q k s).fresh = s.fresh := fun _ _ _ => rfl
@[simp] theorem putQueue_linkErrs : ∀ q k s, (putQueue q k s).linkErrs = s.linkErrs := fun _ _ _ => rfl
@[simp] theorem putQueue_suspects : ∀ q k s, (putQueue q k s).suspects = s.suspects := fun _ _ _ => rfl
@[simp] theorem putQueue_hbAt : ∀ q k s, (putQueue q k s).hbAt = s.hbAt := fun _ _ _ => rfl
@[simp] theorem putQueue_hbQuiet : ∀ q k s, (putQueue q k s).hbQuiet = s.hbQuiet := fun _ _ _ => rfl
@[simp] theorem putQueue_siteUc : ∀ q k s, (putQueue q k s).siteUc = s.siteUc := fun _ _ _ => rfl
@[simp] theorem putQueue_siteCe : ∀ q k s, (putQueue q k s).siteCe = s.siteCe := fun _ _ _ => rfl
@[simp] theorem putQueue_chans : ∀ q k s, (putQueue q k s).chans = s.chans := fun _ _ _ => rfl
@[simp] theorem putQueue_mcLast : ∀ q k s, (putQueue q k s).mcLast = s.mcLast := fun _ _ _ => rfl
@[simp] theorem putQueue_filled : ∀ q k s, (putQueue q k s).filled = s.filled := fun _ _ _ => rfl
@[simp] theorem putQueue_dlog : ∀ q k s, (putQueue q k s).dlog = s.dlog := fun _ _ _ => rfl
@[simp] theorem putQueue_outbox : ∀ q k s, (putQueue q k s).outbox = s.outbox := fun _ _ _ => rfl
@[simp] theorem putQueue_banks : ∀ q k s, (putQueue q k s).banks = s.banks := fun _ _ _ => rfl
@[simp] theorem putQueue_engCyc : ∀ q k s, (putQueue q k s).engCyc = s.engCyc := fun _ _ _ => rfl
@[simp] theorem putQueue_tagged : ∀ q k s, (putQueue q k s).tagged = s.tagged := fun _ _ _ => rfl
@[simp] theorem putQueue_sweptAt : ∀ q k s, (putQueue q k s).sweptAt = s.sweptAt := fun _ _ _ => rfl
@[simp] theorem putQueue_owedEnd : ∀ q k s, (putQueue q k s).owedEnd = s.owedEnd := fun _ _ _ => rfl
@[simp] theorem putQueue_conns : ∀ q k s, (putQueue q k s).conns = s.conns := fun _ _ _ => rfl
@[simp] theorem putQueue_ifcs : ∀ q k s, (putQueue q k s).ifcs = s.ifcs := fun _ _ _ => rfl
@[simp] theorem putQueue_jobs : ∀ q k s, (putQueue q k s).jobs = s.jobs := fun _ _ _ => rfl
@[simp] theorem putQueue_cseq : ∀ q k s, (putQueue q k s).cseq = s.cseq := fun _ _ _ => rfl
@[simp] theorem putQueue_readys : ∀ q k s, (putQueue q k s).readys = s.readys := fun _ _ _ => rfl
@[simp] theorem putQueue_syns : ∀ q k s, (putQueue q k s).syns = s.syns := fun _ _ _ => rfl
@[simp] theorem putQueue_noConnAt : ∀ q k s, (putQueue q k s).noConnAt = s.noConnAt := fun _ _ _ => rfl
@[simp] theorem putQueue_jbuf : ∀ q k s, (putQueue q k s).jbuf = s.jbuf := fun _ _ _ => rfl
@[simp] theorem putQueue_jover : ∀ q k s, (putQueue q k s).jover = s.jover := fun _ _ _ => rfl
@[simp] theorem putQueue_ceAgg : ∀ q k s, (putQueue q k s).ceAgg = s.ceAgg := fun _ _ _ => rfl
@[simp] theorem putQueue_powerOn : ∀ q k s, (putQueue q k s).powerOn = s.powerOn := fun _ _ _ => rfl
@[simp] theorem putQueue_bootNo : ∀ q k s, (putQueue q k s).bootNo = s.bootNo := fun _ _ _ => rfl
@[simp] theorem putQueue_bootAt : ∀ q k s, (putQueue q k s).bootAt = s.bootAt := fun _ _ _ => rfl
@[simp] theorem putQueue_now : ∀ q k s, (putQueue q k s).now = s.now := fun _ _ _ => rfl
@[simp] theorem putQueue_resetEdge : ∀ q k s, (putQueue q k s).resetEdge = s.resetEdge := fun _ _ _ => rfl
@[simp] theorem putQueue_freeCtr : ∀ q k s, (putQueue q k s).freeCtr = s.freeCtr := fun _ _ _ => rfl
@[simp] theorem putQueue_pending : ∀ q k s, (putQueue q k s).pending = s.pending := fun _ _ _ => rfl

@[simp] theorem getCore_putQueue : ∀ q k s n, getCore (putQueue q k s) n = getCore s n := fun _ _ _ _ => rfl
@[simp] theorem getHedge_putQueue : ∀ q k s n, getHedge (putQueue q k s) n = getHedge s n := fun _ _ _ _ => rfl
@[simp] theorem getBank_putQueue : ∀ q k s n, getBank (putQueue q k s) n = getBank s n := fun _ _ _ _ => rfl
@[simp] theorem getChan_putQueue : ∀ q k s n, getChan (putQueue q k s) n = getChan s n := fun _ _ _ _ => rfl
@[simp] theorem getClus_putQueue : ∀ q k s n, getClus (putQueue q k s) n = getClus s n := fun _ _ _ _ => rfl
@[simp] theorem getConn_putQueue : ∀ q k s n, getConn (putQueue q k s) n = getConn s n := fun _ _ _ _ => rfl
@[simp] theorem getIfc_putQueue : ∀ q k s n, getIfc (putQueue q k s) n = getIfc s n := fun _ _ _ _ => rfl
@[simp] theorem getF_putQueue : ∀ q k s d g j, getF (putQueue q k s) d g j = getF s d g j := fun _ _ _ _ _ _ => rfl

/-! ## putBank -/

@[simp] theorem putBank_fld : ∀ b k s, (putBank b k s).fld = s.fld := fun _ _ _ => rfl
@[simp] theorem putBank_mem : ∀ b k s, (putBank b k s).mem = s.mem := fun _ _ _ => rfl
@[simp] theorem putBank_damage : ∀ b k s, (putBank b k s).damage = s.damage := fun _ _ _ => rfl
@[simp] theorem putBank_cores : ∀ b k s, (putBank b k s).cores = s.cores := fun _ _ _ => rfl
@[simp] theorem putBank_packets : ∀ b k s, (putBank b k s).packets = s.packets := fun _ _ _ => rfl
@[simp] theorem putBank_nextPkt : ∀ b k s, (putBank b k s).nextPkt = s.nextPkt := fun _ _ _ => rfl
@[simp] theorem putBank_flits : ∀ b k s, (putBank b k s).flits = s.flits := fun _ _ _ => rfl
@[simp] theorem putBank_rest : ∀ b k s, (putBank b k s).rest = s.rest := fun _ _ _ => rfl
@[simp] theorem putBank_rtrAll : ∀ b k s, (putBank b k s).rtrAll = s.rtrAll := fun _ _ _ => rfl
@[simp] theorem putBank_rtrOwn : ∀ b k s, (putBank b k s).rtrOwn = s.rtrOwn := fun _ _ _ => rfl
@[simp] theorem putBank_detour : ∀ b k s, (putBank b k s).detour = s.detour := fun _ _ _ => rfl
@[simp] theorem putBank_hedges : ∀ b k s, (putBank b k s).hedges = s.hedges := fun _ _ _ => rfl
@[simp] theorem putBank_queues : ∀ b k s, (putBank b k s).queues = s.queues := fun _ _ _ => rfl
@[simp] theorem putBank_evt : ∀ b k s, (putBank b k s).evt = s.evt := fun _ _ _ => rfl
@[simp] theorem putBank_evtStage : ∀ b k s, (putBank b k s).evtStage = s.evtStage := fun _ _ _ => rfl
@[simp] theorem putBank_evtLatch : ∀ b k s, (putBank b k s).evtLatch = s.evtLatch := fun _ _ _ => rfl
@[simp] theorem putBank_ucs : ∀ b k s, (putBank b k s).ucs = s.ucs := fun _ _ _ => rfl
@[simp] theorem putBank_evtDue : ∀ b k s, (putBank b k s).evtDue = s.evtDue := fun _ _ _ => rfl
@[simp] theorem putBank_notices : ∀ b k s, (putBank b k s).notices = s.notices := fun _ _ _ => rfl
@[simp] theorem putBank_holes : ∀ b k s, (putBank b k s).holes = s.holes := fun _ _ _ => rfl
@[simp] theorem putBank_disabled : ∀ b k s, (putBank b k s).disabled = s.disabled := fun _ _ _ => rfl
@[simp] theorem putBank_lost : ∀ b k s, (putBank b k s).lost = s.lost := fun _ _ _ => rfl
@[simp] theorem putBank_pinned : ∀ b k s, (putBank b k s).pinned = s.pinned := fun _ _ _ => rfl
@[simp] theorem putBank_planned : ∀ b k s, (putBank b k s).planned = s.planned := fun _ _ _ => rfl
@[simp] theorem putBank_failed : ∀ b k s, (putBank b k s).failed = s.failed := fun _ _ _ => rfl
@[simp] theorem putBank_shifts : ∀ b k s, (putBank b k s).shifts = s.shifts := fun _ _ _ => rfl
@[simp] theorem putBank_doomed : ∀ b k s, (putBank b k s).doomed = s.doomed := fun _ _ _ => rfl
@[simp] theorem putBank_retired : ∀ b k s, (putBank b k s).retired = s.retired := fun _ _ _ => rfl
@[simp] theorem putBank_wakeReqs : ∀ b k s, (putBank b k s).wakeReqs = s.wakeReqs := fun _ _ _ => rfl
@[simp] theorem putBank_clus : ∀ b k s, (putBank b k s).clus = s.clus := fun _ _ _ => rfl
@[simp] theorem putBank_halfSlips : ∀ b k s, (putBank b k s).halfSlips = s.halfSlips := fun _ _ _ => rfl
@[simp] theorem putBank_skids : ∀ b k s, (putBank b k s).skids = s.skids := fun _ _ _ => rfl
@[simp] theorem putBank_linkSent : ∀ b k s, (putBank b k s).linkSent = s.linkSent := fun _ _ _ => rfl
@[simp] theorem putBank_mapHold : ∀ b k s, (putBank b k s).mapHold = s.mapHold := fun _ _ _ => rfl
@[simp] theorem putBank_mapped : ∀ b k s, (putBank b k s).mapped = s.mapped := fun _ _ _ => rfl
@[simp] theorem putBank_pwr : ∀ b k s, (putBank b k s).pwr = s.pwr := fun _ _ _ => rfl
@[simp] theorem putBank_deadCells : ∀ b k s, (putBank b k s).deadCells = s.deadCells := fun _ _ _ => rfl
@[simp] theorem putBank_grants : ∀ b k s, (putBank b k s).grants = s.grants := fun _ _ _ => rfl
@[simp] theorem putBank_reports : ∀ b k s, (putBank b k s).reports = s.reports := fun _ _ _ => rfl
@[simp] theorem putBank_waited : ∀ b k s, (putBank b k s).waited = s.waited := fun _ _ _ => rfl
@[simp] theorem putBank_dry : ∀ b k s, (putBank b k s).dry = s.dry := fun _ _ _ => rfl
@[simp] theorem putBank_nextGrant : ∀ b k s, (putBank b k s).nextGrant = s.nextGrant := fun _ _ _ => rfl
@[simp] theorem putBank_fuses : ∀ b k s, (putBank b k s).fuses = s.fuses := fun _ _ _ => rfl
@[simp] theorem putBank_flash : ∀ b k s, (putBank b k s).flash = s.flash := fun _ _ _ => rfl
@[simp] theorem putBank_sessions : ∀ b k s, (putBank b k s).sessions = s.sessions := fun _ _ _ => rfl
@[simp] theorem putBank_preqs : ∀ b k s, (putBank b k s).preqs = s.preqs := fun _ _ _ => rfl
@[simp] theorem putBank_served : ∀ b k s, (putBank b k s).served = s.served := fun _ _ _ => rfl
@[simp] theorem putBank_busy : ∀ b k s, (putBank b k s).busy = s.busy := fun _ _ _ => rfl
@[simp] theorem putBank_frags : ∀ b k s, (putBank b k s).frags = s.frags := fun _ _ _ => rfl
@[simp] theorem putBank_resetAt : ∀ b k s, (putBank b k s).resetAt = s.resetAt := fun _ _ _ => rfl
@[simp] theorem putBank_resetReq : ∀ b k s, (putBank b k s).resetReq = s.resetReq := fun _ _ _ => rfl
@[simp] theorem putBank_macKeys : ∀ b k s, (putBank b k s).macKeys = s.macKeys := fun _ _ _ => rfl
@[simp] theorem putBank_boot : ∀ b k s, (putBank b k s).boot = s.boot := fun _ _ _ => rfl
@[simp] theorem putBank_tests : ∀ b k s, (putBank b k s).tests = s.tests := fun _ _ _ => rfl
@[simp] theorem putBank_testedAt : ∀ b k s, (putBank b k s).testedAt = s.testedAt := fun _ _ _ => rfl
@[simp] theorem putBank_idleAt : ∀ b k s, (putBank b k s).idleAt = s.idleAt := fun _ _ _ => rfl
@[simp] theorem putBank_retest : ∀ b k s, (putBank b k s).retest = s.retest := fun _ _ _ => rfl
@[simp] theorem putBank_splits : ∀ b k s, (putBank b k s).splits = s.splits := fun _ _ _ => rfl
@[simp] theorem putBank_fresh : ∀ b k s, (putBank b k s).fresh = s.fresh := fun _ _ _ => rfl
@[simp] theorem putBank_linkErrs : ∀ b k s, (putBank b k s).linkErrs = s.linkErrs := fun _ _ _ => rfl
@[simp] theorem putBank_suspects : ∀ b k s, (putBank b k s).suspects = s.suspects := fun _ _ _ => rfl
@[simp] theorem putBank_hbAt : ∀ b k s, (putBank b k s).hbAt = s.hbAt := fun _ _ _ => rfl
@[simp] theorem putBank_hbQuiet : ∀ b k s, (putBank b k s).hbQuiet = s.hbQuiet := fun _ _ _ => rfl
@[simp] theorem putBank_siteUc : ∀ b k s, (putBank b k s).siteUc = s.siteUc := fun _ _ _ => rfl
@[simp] theorem putBank_siteCe : ∀ b k s, (putBank b k s).siteCe = s.siteCe := fun _ _ _ => rfl
@[simp] theorem putBank_chans : ∀ b k s, (putBank b k s).chans = s.chans := fun _ _ _ => rfl
@[simp] theorem putBank_mcLast : ∀ b k s, (putBank b k s).mcLast = s.mcLast := fun _ _ _ => rfl
@[simp] theorem putBank_filled : ∀ b k s, (putBank b k s).filled = s.filled := fun _ _ _ => rfl
@[simp] theorem putBank_dlog : ∀ b k s, (putBank b k s).dlog = s.dlog := fun _ _ _ => rfl
@[simp] theorem putBank_outbox : ∀ b k s, (putBank b k s).outbox = s.outbox := fun _ _ _ => rfl
@[simp] theorem putBank_engCyc : ∀ b k s, (putBank b k s).engCyc = s.engCyc := fun _ _ _ => rfl
@[simp] theorem putBank_tagged : ∀ b k s, (putBank b k s).tagged = s.tagged := fun _ _ _ => rfl
@[simp] theorem putBank_sweptAt : ∀ b k s, (putBank b k s).sweptAt = s.sweptAt := fun _ _ _ => rfl
@[simp] theorem putBank_owedEnd : ∀ b k s, (putBank b k s).owedEnd = s.owedEnd := fun _ _ _ => rfl
@[simp] theorem putBank_conns : ∀ b k s, (putBank b k s).conns = s.conns := fun _ _ _ => rfl
@[simp] theorem putBank_ifcs : ∀ b k s, (putBank b k s).ifcs = s.ifcs := fun _ _ _ => rfl
@[simp] theorem putBank_jobs : ∀ b k s, (putBank b k s).jobs = s.jobs := fun _ _ _ => rfl
@[simp] theorem putBank_cseq : ∀ b k s, (putBank b k s).cseq = s.cseq := fun _ _ _ => rfl
@[simp] theorem putBank_readys : ∀ b k s, (putBank b k s).readys = s.readys := fun _ _ _ => rfl
@[simp] theorem putBank_syns : ∀ b k s, (putBank b k s).syns = s.syns := fun _ _ _ => rfl
@[simp] theorem putBank_noConnAt : ∀ b k s, (putBank b k s).noConnAt = s.noConnAt := fun _ _ _ => rfl
@[simp] theorem putBank_jbuf : ∀ b k s, (putBank b k s).jbuf = s.jbuf := fun _ _ _ => rfl
@[simp] theorem putBank_jover : ∀ b k s, (putBank b k s).jover = s.jover := fun _ _ _ => rfl
@[simp] theorem putBank_ceAgg : ∀ b k s, (putBank b k s).ceAgg = s.ceAgg := fun _ _ _ => rfl
@[simp] theorem putBank_powerOn : ∀ b k s, (putBank b k s).powerOn = s.powerOn := fun _ _ _ => rfl
@[simp] theorem putBank_bootNo : ∀ b k s, (putBank b k s).bootNo = s.bootNo := fun _ _ _ => rfl
@[simp] theorem putBank_bootAt : ∀ b k s, (putBank b k s).bootAt = s.bootAt := fun _ _ _ => rfl
@[simp] theorem putBank_now : ∀ b k s, (putBank b k s).now = s.now := fun _ _ _ => rfl
@[simp] theorem putBank_resetEdge : ∀ b k s, (putBank b k s).resetEdge = s.resetEdge := fun _ _ _ => rfl
@[simp] theorem putBank_freeCtr : ∀ b k s, (putBank b k s).freeCtr = s.freeCtr := fun _ _ _ => rfl
@[simp] theorem putBank_pending : ∀ b k s, (putBank b k s).pending = s.pending := fun _ _ _ => rfl

@[simp] theorem getCore_putBank : ∀ b k s n, getCore (putBank b k s) n = getCore s n := fun _ _ _ _ => rfl
@[simp] theorem getHedge_putBank : ∀ b k s n, getHedge (putBank b k s) n = getHedge s n := fun _ _ _ _ => rfl
@[simp] theorem getQueue_putBank : ∀ b k s n, getQueue (putBank b k s) n = getQueue s n := fun _ _ _ _ => rfl
@[simp] theorem getChan_putBank : ∀ b k s n, getChan (putBank b k s) n = getChan s n := fun _ _ _ _ => rfl
@[simp] theorem getClus_putBank : ∀ b k s n, getClus (putBank b k s) n = getClus s n := fun _ _ _ _ => rfl
@[simp] theorem getConn_putBank : ∀ b k s n, getConn (putBank b k s) n = getConn s n := fun _ _ _ _ => rfl
@[simp] theorem getIfc_putBank : ∀ b k s n, getIfc (putBank b k s) n = getIfc s n := fun _ _ _ _ => rfl
@[simp] theorem getF_putBank : ∀ b k s d g j, getF (putBank b k s) d g j = getF s d g j := fun _ _ _ _ _ _ => rfl

/-! ## putChan -/

@[simp] theorem putChan_fld : ∀ ch k s, (putChan ch k s).fld = s.fld := fun _ _ _ => rfl
@[simp] theorem putChan_mem : ∀ ch k s, (putChan ch k s).mem = s.mem := fun _ _ _ => rfl
@[simp] theorem putChan_damage : ∀ ch k s, (putChan ch k s).damage = s.damage := fun _ _ _ => rfl
@[simp] theorem putChan_cores : ∀ ch k s, (putChan ch k s).cores = s.cores := fun _ _ _ => rfl
@[simp] theorem putChan_packets : ∀ ch k s, (putChan ch k s).packets = s.packets := fun _ _ _ => rfl
@[simp] theorem putChan_nextPkt : ∀ ch k s, (putChan ch k s).nextPkt = s.nextPkt := fun _ _ _ => rfl
@[simp] theorem putChan_flits : ∀ ch k s, (putChan ch k s).flits = s.flits := fun _ _ _ => rfl
@[simp] theorem putChan_rest : ∀ ch k s, (putChan ch k s).rest = s.rest := fun _ _ _ => rfl
@[simp] theorem putChan_rtrAll : ∀ ch k s, (putChan ch k s).rtrAll = s.rtrAll := fun _ _ _ => rfl
@[simp] theorem putChan_rtrOwn : ∀ ch k s, (putChan ch k s).rtrOwn = s.rtrOwn := fun _ _ _ => rfl
@[simp] theorem putChan_detour : ∀ ch k s, (putChan ch k s).detour = s.detour := fun _ _ _ => rfl
@[simp] theorem putChan_hedges : ∀ ch k s, (putChan ch k s).hedges = s.hedges := fun _ _ _ => rfl
@[simp] theorem putChan_queues : ∀ ch k s, (putChan ch k s).queues = s.queues := fun _ _ _ => rfl
@[simp] theorem putChan_evt : ∀ ch k s, (putChan ch k s).evt = s.evt := fun _ _ _ => rfl
@[simp] theorem putChan_evtStage : ∀ ch k s, (putChan ch k s).evtStage = s.evtStage := fun _ _ _ => rfl
@[simp] theorem putChan_evtLatch : ∀ ch k s, (putChan ch k s).evtLatch = s.evtLatch := fun _ _ _ => rfl
@[simp] theorem putChan_ucs : ∀ ch k s, (putChan ch k s).ucs = s.ucs := fun _ _ _ => rfl
@[simp] theorem putChan_evtDue : ∀ ch k s, (putChan ch k s).evtDue = s.evtDue := fun _ _ _ => rfl
@[simp] theorem putChan_notices : ∀ ch k s, (putChan ch k s).notices = s.notices := fun _ _ _ => rfl
@[simp] theorem putChan_holes : ∀ ch k s, (putChan ch k s).holes = s.holes := fun _ _ _ => rfl
@[simp] theorem putChan_disabled : ∀ ch k s, (putChan ch k s).disabled = s.disabled := fun _ _ _ => rfl
@[simp] theorem putChan_lost : ∀ ch k s, (putChan ch k s).lost = s.lost := fun _ _ _ => rfl
@[simp] theorem putChan_pinned : ∀ ch k s, (putChan ch k s).pinned = s.pinned := fun _ _ _ => rfl
@[simp] theorem putChan_planned : ∀ ch k s, (putChan ch k s).planned = s.planned := fun _ _ _ => rfl
@[simp] theorem putChan_failed : ∀ ch k s, (putChan ch k s).failed = s.failed := fun _ _ _ => rfl
@[simp] theorem putChan_shifts : ∀ ch k s, (putChan ch k s).shifts = s.shifts := fun _ _ _ => rfl
@[simp] theorem putChan_doomed : ∀ ch k s, (putChan ch k s).doomed = s.doomed := fun _ _ _ => rfl
@[simp] theorem putChan_retired : ∀ ch k s, (putChan ch k s).retired = s.retired := fun _ _ _ => rfl
@[simp] theorem putChan_wakeReqs : ∀ ch k s, (putChan ch k s).wakeReqs = s.wakeReqs := fun _ _ _ => rfl
@[simp] theorem putChan_clus : ∀ ch k s, (putChan ch k s).clus = s.clus := fun _ _ _ => rfl
@[simp] theorem putChan_halfSlips : ∀ ch k s, (putChan ch k s).halfSlips = s.halfSlips := fun _ _ _ => rfl
@[simp] theorem putChan_skids : ∀ ch k s, (putChan ch k s).skids = s.skids := fun _ _ _ => rfl
@[simp] theorem putChan_linkSent : ∀ ch k s, (putChan ch k s).linkSent = s.linkSent := fun _ _ _ => rfl
@[simp] theorem putChan_mapHold : ∀ ch k s, (putChan ch k s).mapHold = s.mapHold := fun _ _ _ => rfl
@[simp] theorem putChan_mapped : ∀ ch k s, (putChan ch k s).mapped = s.mapped := fun _ _ _ => rfl
@[simp] theorem putChan_pwr : ∀ ch k s, (putChan ch k s).pwr = s.pwr := fun _ _ _ => rfl
@[simp] theorem putChan_deadCells : ∀ ch k s, (putChan ch k s).deadCells = s.deadCells := fun _ _ _ => rfl
@[simp] theorem putChan_grants : ∀ ch k s, (putChan ch k s).grants = s.grants := fun _ _ _ => rfl
@[simp] theorem putChan_reports : ∀ ch k s, (putChan ch k s).reports = s.reports := fun _ _ _ => rfl
@[simp] theorem putChan_waited : ∀ ch k s, (putChan ch k s).waited = s.waited := fun _ _ _ => rfl
@[simp] theorem putChan_dry : ∀ ch k s, (putChan ch k s).dry = s.dry := fun _ _ _ => rfl
@[simp] theorem putChan_nextGrant : ∀ ch k s, (putChan ch k s).nextGrant = s.nextGrant := fun _ _ _ => rfl
@[simp] theorem putChan_fuses : ∀ ch k s, (putChan ch k s).fuses = s.fuses := fun _ _ _ => rfl
@[simp] theorem putChan_flash : ∀ ch k s, (putChan ch k s).flash = s.flash := fun _ _ _ => rfl
@[simp] theorem putChan_sessions : ∀ ch k s, (putChan ch k s).sessions = s.sessions := fun _ _ _ => rfl
@[simp] theorem putChan_preqs : ∀ ch k s, (putChan ch k s).preqs = s.preqs := fun _ _ _ => rfl
@[simp] theorem putChan_served : ∀ ch k s, (putChan ch k s).served = s.served := fun _ _ _ => rfl
@[simp] theorem putChan_busy : ∀ ch k s, (putChan ch k s).busy = s.busy := fun _ _ _ => rfl
@[simp] theorem putChan_frags : ∀ ch k s, (putChan ch k s).frags = s.frags := fun _ _ _ => rfl
@[simp] theorem putChan_resetAt : ∀ ch k s, (putChan ch k s).resetAt = s.resetAt := fun _ _ _ => rfl
@[simp] theorem putChan_resetReq : ∀ ch k s, (putChan ch k s).resetReq = s.resetReq := fun _ _ _ => rfl
@[simp] theorem putChan_macKeys : ∀ ch k s, (putChan ch k s).macKeys = s.macKeys := fun _ _ _ => rfl
@[simp] theorem putChan_boot : ∀ ch k s, (putChan ch k s).boot = s.boot := fun _ _ _ => rfl
@[simp] theorem putChan_tests : ∀ ch k s, (putChan ch k s).tests = s.tests := fun _ _ _ => rfl
@[simp] theorem putChan_testedAt : ∀ ch k s, (putChan ch k s).testedAt = s.testedAt := fun _ _ _ => rfl
@[simp] theorem putChan_idleAt : ∀ ch k s, (putChan ch k s).idleAt = s.idleAt := fun _ _ _ => rfl
@[simp] theorem putChan_retest : ∀ ch k s, (putChan ch k s).retest = s.retest := fun _ _ _ => rfl
@[simp] theorem putChan_splits : ∀ ch k s, (putChan ch k s).splits = s.splits := fun _ _ _ => rfl
@[simp] theorem putChan_fresh : ∀ ch k s, (putChan ch k s).fresh = s.fresh := fun _ _ _ => rfl
@[simp] theorem putChan_linkErrs : ∀ ch k s, (putChan ch k s).linkErrs = s.linkErrs := fun _ _ _ => rfl
@[simp] theorem putChan_suspects : ∀ ch k s, (putChan ch k s).suspects = s.suspects := fun _ _ _ => rfl
@[simp] theorem putChan_hbAt : ∀ ch k s, (putChan ch k s).hbAt = s.hbAt := fun _ _ _ => rfl
@[simp] theorem putChan_hbQuiet : ∀ ch k s, (putChan ch k s).hbQuiet = s.hbQuiet := fun _ _ _ => rfl
@[simp] theorem putChan_siteUc : ∀ ch k s, (putChan ch k s).siteUc = s.siteUc := fun _ _ _ => rfl
@[simp] theorem putChan_siteCe : ∀ ch k s, (putChan ch k s).siteCe = s.siteCe := fun _ _ _ => rfl
@[simp] theorem putChan_mcLast : ∀ ch k s, (putChan ch k s).mcLast = s.mcLast := fun _ _ _ => rfl
@[simp] theorem putChan_filled : ∀ ch k s, (putChan ch k s).filled = s.filled := fun _ _ _ => rfl
@[simp] theorem putChan_dlog : ∀ ch k s, (putChan ch k s).dlog = s.dlog := fun _ _ _ => rfl
@[simp] theorem putChan_outbox : ∀ ch k s, (putChan ch k s).outbox = s.outbox := fun _ _ _ => rfl
@[simp] theorem putChan_banks : ∀ ch k s, (putChan ch k s).banks = s.banks := fun _ _ _ => rfl
@[simp] theorem putChan_engCyc : ∀ ch k s, (putChan ch k s).engCyc = s.engCyc := fun _ _ _ => rfl
@[simp] theorem putChan_tagged : ∀ ch k s, (putChan ch k s).tagged = s.tagged := fun _ _ _ => rfl
@[simp] theorem putChan_sweptAt : ∀ ch k s, (putChan ch k s).sweptAt = s.sweptAt := fun _ _ _ => rfl
@[simp] theorem putChan_owedEnd : ∀ ch k s, (putChan ch k s).owedEnd = s.owedEnd := fun _ _ _ => rfl
@[simp] theorem putChan_conns : ∀ ch k s, (putChan ch k s).conns = s.conns := fun _ _ _ => rfl
@[simp] theorem putChan_ifcs : ∀ ch k s, (putChan ch k s).ifcs = s.ifcs := fun _ _ _ => rfl
@[simp] theorem putChan_jobs : ∀ ch k s, (putChan ch k s).jobs = s.jobs := fun _ _ _ => rfl
@[simp] theorem putChan_cseq : ∀ ch k s, (putChan ch k s).cseq = s.cseq := fun _ _ _ => rfl
@[simp] theorem putChan_readys : ∀ ch k s, (putChan ch k s).readys = s.readys := fun _ _ _ => rfl
@[simp] theorem putChan_syns : ∀ ch k s, (putChan ch k s).syns = s.syns := fun _ _ _ => rfl
@[simp] theorem putChan_noConnAt : ∀ ch k s, (putChan ch k s).noConnAt = s.noConnAt := fun _ _ _ => rfl
@[simp] theorem putChan_jbuf : ∀ ch k s, (putChan ch k s).jbuf = s.jbuf := fun _ _ _ => rfl
@[simp] theorem putChan_jover : ∀ ch k s, (putChan ch k s).jover = s.jover := fun _ _ _ => rfl
@[simp] theorem putChan_ceAgg : ∀ ch k s, (putChan ch k s).ceAgg = s.ceAgg := fun _ _ _ => rfl
@[simp] theorem putChan_powerOn : ∀ ch k s, (putChan ch k s).powerOn = s.powerOn := fun _ _ _ => rfl
@[simp] theorem putChan_bootNo : ∀ ch k s, (putChan ch k s).bootNo = s.bootNo := fun _ _ _ => rfl
@[simp] theorem putChan_bootAt : ∀ ch k s, (putChan ch k s).bootAt = s.bootAt := fun _ _ _ => rfl
@[simp] theorem putChan_now : ∀ ch k s, (putChan ch k s).now = s.now := fun _ _ _ => rfl
@[simp] theorem putChan_resetEdge : ∀ ch k s, (putChan ch k s).resetEdge = s.resetEdge := fun _ _ _ => rfl
@[simp] theorem putChan_freeCtr : ∀ ch k s, (putChan ch k s).freeCtr = s.freeCtr := fun _ _ _ => rfl
@[simp] theorem putChan_pending : ∀ ch k s, (putChan ch k s).pending = s.pending := fun _ _ _ => rfl

@[simp] theorem getCore_putChan : ∀ ch k s n, getCore (putChan ch k s) n = getCore s n := fun _ _ _ _ => rfl
@[simp] theorem getHedge_putChan : ∀ ch k s n, getHedge (putChan ch k s) n = getHedge s n := fun _ _ _ _ => rfl
@[simp] theorem getQueue_putChan : ∀ ch k s n, getQueue (putChan ch k s) n = getQueue s n := fun _ _ _ _ => rfl
@[simp] theorem getBank_putChan : ∀ ch k s n, getBank (putChan ch k s) n = getBank s n := fun _ _ _ _ => rfl
@[simp] theorem getClus_putChan : ∀ ch k s n, getClus (putChan ch k s) n = getClus s n := fun _ _ _ _ => rfl
@[simp] theorem getConn_putChan : ∀ ch k s n, getConn (putChan ch k s) n = getConn s n := fun _ _ _ _ => rfl
@[simp] theorem getIfc_putChan : ∀ ch k s n, getIfc (putChan ch k s) n = getIfc s n := fun _ _ _ _ => rfl
@[simp] theorem getF_putChan : ∀ ch k s d g j, getF (putChan ch k s) d g j = getF s d g j := fun _ _ _ _ _ _ => rfl

/-! ## putClus -/

@[simp] theorem putClus_fld : ∀ cl k s, (putClus cl k s).fld = s.fld := fun _ _ _ => rfl
@[simp] theorem putClus_mem : ∀ cl k s, (putClus cl k s).mem = s.mem := fun _ _ _ => rfl
@[simp] theorem putClus_damage : ∀ cl k s, (putClus cl k s).damage = s.damage := fun _ _ _ => rfl
@[simp] theorem putClus_cores : ∀ cl k s, (putClus cl k s).cores = s.cores := fun _ _ _ => rfl
@[simp] theorem putClus_packets : ∀ cl k s, (putClus cl k s).packets = s.packets := fun _ _ _ => rfl
@[simp] theorem putClus_nextPkt : ∀ cl k s, (putClus cl k s).nextPkt = s.nextPkt := fun _ _ _ => rfl
@[simp] theorem putClus_flits : ∀ cl k s, (putClus cl k s).flits = s.flits := fun _ _ _ => rfl
@[simp] theorem putClus_rest : ∀ cl k s, (putClus cl k s).rest = s.rest := fun _ _ _ => rfl
@[simp] theorem putClus_rtrAll : ∀ cl k s, (putClus cl k s).rtrAll = s.rtrAll := fun _ _ _ => rfl
@[simp] theorem putClus_rtrOwn : ∀ cl k s, (putClus cl k s).rtrOwn = s.rtrOwn := fun _ _ _ => rfl
@[simp] theorem putClus_detour : ∀ cl k s, (putClus cl k s).detour = s.detour := fun _ _ _ => rfl
@[simp] theorem putClus_hedges : ∀ cl k s, (putClus cl k s).hedges = s.hedges := fun _ _ _ => rfl
@[simp] theorem putClus_queues : ∀ cl k s, (putClus cl k s).queues = s.queues := fun _ _ _ => rfl
@[simp] theorem putClus_evt : ∀ cl k s, (putClus cl k s).evt = s.evt := fun _ _ _ => rfl
@[simp] theorem putClus_evtStage : ∀ cl k s, (putClus cl k s).evtStage = s.evtStage := fun _ _ _ => rfl
@[simp] theorem putClus_evtLatch : ∀ cl k s, (putClus cl k s).evtLatch = s.evtLatch := fun _ _ _ => rfl
@[simp] theorem putClus_ucs : ∀ cl k s, (putClus cl k s).ucs = s.ucs := fun _ _ _ => rfl
@[simp] theorem putClus_evtDue : ∀ cl k s, (putClus cl k s).evtDue = s.evtDue := fun _ _ _ => rfl
@[simp] theorem putClus_notices : ∀ cl k s, (putClus cl k s).notices = s.notices := fun _ _ _ => rfl
@[simp] theorem putClus_holes : ∀ cl k s, (putClus cl k s).holes = s.holes := fun _ _ _ => rfl
@[simp] theorem putClus_disabled : ∀ cl k s, (putClus cl k s).disabled = s.disabled := fun _ _ _ => rfl
@[simp] theorem putClus_lost : ∀ cl k s, (putClus cl k s).lost = s.lost := fun _ _ _ => rfl
@[simp] theorem putClus_pinned : ∀ cl k s, (putClus cl k s).pinned = s.pinned := fun _ _ _ => rfl
@[simp] theorem putClus_planned : ∀ cl k s, (putClus cl k s).planned = s.planned := fun _ _ _ => rfl
@[simp] theorem putClus_failed : ∀ cl k s, (putClus cl k s).failed = s.failed := fun _ _ _ => rfl
@[simp] theorem putClus_shifts : ∀ cl k s, (putClus cl k s).shifts = s.shifts := fun _ _ _ => rfl
@[simp] theorem putClus_doomed : ∀ cl k s, (putClus cl k s).doomed = s.doomed := fun _ _ _ => rfl
@[simp] theorem putClus_retired : ∀ cl k s, (putClus cl k s).retired = s.retired := fun _ _ _ => rfl
@[simp] theorem putClus_wakeReqs : ∀ cl k s, (putClus cl k s).wakeReqs = s.wakeReqs := fun _ _ _ => rfl
@[simp] theorem putClus_halfSlips : ∀ cl k s, (putClus cl k s).halfSlips = s.halfSlips := fun _ _ _ => rfl
@[simp] theorem putClus_skids : ∀ cl k s, (putClus cl k s).skids = s.skids := fun _ _ _ => rfl
@[simp] theorem putClus_linkSent : ∀ cl k s, (putClus cl k s).linkSent = s.linkSent := fun _ _ _ => rfl
@[simp] theorem putClus_mapHold : ∀ cl k s, (putClus cl k s).mapHold = s.mapHold := fun _ _ _ => rfl
@[simp] theorem putClus_mapped : ∀ cl k s, (putClus cl k s).mapped = s.mapped := fun _ _ _ => rfl
@[simp] theorem putClus_pwr : ∀ cl k s, (putClus cl k s).pwr = s.pwr := fun _ _ _ => rfl
@[simp] theorem putClus_deadCells : ∀ cl k s, (putClus cl k s).deadCells = s.deadCells := fun _ _ _ => rfl
@[simp] theorem putClus_grants : ∀ cl k s, (putClus cl k s).grants = s.grants := fun _ _ _ => rfl
@[simp] theorem putClus_reports : ∀ cl k s, (putClus cl k s).reports = s.reports := fun _ _ _ => rfl
@[simp] theorem putClus_waited : ∀ cl k s, (putClus cl k s).waited = s.waited := fun _ _ _ => rfl
@[simp] theorem putClus_dry : ∀ cl k s, (putClus cl k s).dry = s.dry := fun _ _ _ => rfl
@[simp] theorem putClus_nextGrant : ∀ cl k s, (putClus cl k s).nextGrant = s.nextGrant := fun _ _ _ => rfl
@[simp] theorem putClus_fuses : ∀ cl k s, (putClus cl k s).fuses = s.fuses := fun _ _ _ => rfl
@[simp] theorem putClus_flash : ∀ cl k s, (putClus cl k s).flash = s.flash := fun _ _ _ => rfl
@[simp] theorem putClus_sessions : ∀ cl k s, (putClus cl k s).sessions = s.sessions := fun _ _ _ => rfl
@[simp] theorem putClus_preqs : ∀ cl k s, (putClus cl k s).preqs = s.preqs := fun _ _ _ => rfl
@[simp] theorem putClus_served : ∀ cl k s, (putClus cl k s).served = s.served := fun _ _ _ => rfl
@[simp] theorem putClus_busy : ∀ cl k s, (putClus cl k s).busy = s.busy := fun _ _ _ => rfl
@[simp] theorem putClus_frags : ∀ cl k s, (putClus cl k s).frags = s.frags := fun _ _ _ => rfl
@[simp] theorem putClus_resetAt : ∀ cl k s, (putClus cl k s).resetAt = s.resetAt := fun _ _ _ => rfl
@[simp] theorem putClus_resetReq : ∀ cl k s, (putClus cl k s).resetReq = s.resetReq := fun _ _ _ => rfl
@[simp] theorem putClus_macKeys : ∀ cl k s, (putClus cl k s).macKeys = s.macKeys := fun _ _ _ => rfl
@[simp] theorem putClus_boot : ∀ cl k s, (putClus cl k s).boot = s.boot := fun _ _ _ => rfl
@[simp] theorem putClus_tests : ∀ cl k s, (putClus cl k s).tests = s.tests := fun _ _ _ => rfl
@[simp] theorem putClus_testedAt : ∀ cl k s, (putClus cl k s).testedAt = s.testedAt := fun _ _ _ => rfl
@[simp] theorem putClus_idleAt : ∀ cl k s, (putClus cl k s).idleAt = s.idleAt := fun _ _ _ => rfl
@[simp] theorem putClus_retest : ∀ cl k s, (putClus cl k s).retest = s.retest := fun _ _ _ => rfl
@[simp] theorem putClus_splits : ∀ cl k s, (putClus cl k s).splits = s.splits := fun _ _ _ => rfl
@[simp] theorem putClus_fresh : ∀ cl k s, (putClus cl k s).fresh = s.fresh := fun _ _ _ => rfl
@[simp] theorem putClus_linkErrs : ∀ cl k s, (putClus cl k s).linkErrs = s.linkErrs := fun _ _ _ => rfl
@[simp] theorem putClus_suspects : ∀ cl k s, (putClus cl k s).suspects = s.suspects := fun _ _ _ => rfl
@[simp] theorem putClus_hbAt : ∀ cl k s, (putClus cl k s).hbAt = s.hbAt := fun _ _ _ => rfl
@[simp] theorem putClus_hbQuiet : ∀ cl k s, (putClus cl k s).hbQuiet = s.hbQuiet := fun _ _ _ => rfl
@[simp] theorem putClus_siteUc : ∀ cl k s, (putClus cl k s).siteUc = s.siteUc := fun _ _ _ => rfl
@[simp] theorem putClus_siteCe : ∀ cl k s, (putClus cl k s).siteCe = s.siteCe := fun _ _ _ => rfl
@[simp] theorem putClus_chans : ∀ cl k s, (putClus cl k s).chans = s.chans := fun _ _ _ => rfl
@[simp] theorem putClus_mcLast : ∀ cl k s, (putClus cl k s).mcLast = s.mcLast := fun _ _ _ => rfl
@[simp] theorem putClus_filled : ∀ cl k s, (putClus cl k s).filled = s.filled := fun _ _ _ => rfl
@[simp] theorem putClus_dlog : ∀ cl k s, (putClus cl k s).dlog = s.dlog := fun _ _ _ => rfl
@[simp] theorem putClus_outbox : ∀ cl k s, (putClus cl k s).outbox = s.outbox := fun _ _ _ => rfl
@[simp] theorem putClus_banks : ∀ cl k s, (putClus cl k s).banks = s.banks := fun _ _ _ => rfl
@[simp] theorem putClus_engCyc : ∀ cl k s, (putClus cl k s).engCyc = s.engCyc := fun _ _ _ => rfl
@[simp] theorem putClus_tagged : ∀ cl k s, (putClus cl k s).tagged = s.tagged := fun _ _ _ => rfl
@[simp] theorem putClus_sweptAt : ∀ cl k s, (putClus cl k s).sweptAt = s.sweptAt := fun _ _ _ => rfl
@[simp] theorem putClus_owedEnd : ∀ cl k s, (putClus cl k s).owedEnd = s.owedEnd := fun _ _ _ => rfl
@[simp] theorem putClus_conns : ∀ cl k s, (putClus cl k s).conns = s.conns := fun _ _ _ => rfl
@[simp] theorem putClus_ifcs : ∀ cl k s, (putClus cl k s).ifcs = s.ifcs := fun _ _ _ => rfl
@[simp] theorem putClus_jobs : ∀ cl k s, (putClus cl k s).jobs = s.jobs := fun _ _ _ => rfl
@[simp] theorem putClus_cseq : ∀ cl k s, (putClus cl k s).cseq = s.cseq := fun _ _ _ => rfl
@[simp] theorem putClus_readys : ∀ cl k s, (putClus cl k s).readys = s.readys := fun _ _ _ => rfl
@[simp] theorem putClus_syns : ∀ cl k s, (putClus cl k s).syns = s.syns := fun _ _ _ => rfl
@[simp] theorem putClus_noConnAt : ∀ cl k s, (putClus cl k s).noConnAt = s.noConnAt := fun _ _ _ => rfl
@[simp] theorem putClus_jbuf : ∀ cl k s, (putClus cl k s).jbuf = s.jbuf := fun _ _ _ => rfl
@[simp] theorem putClus_jover : ∀ cl k s, (putClus cl k s).jover = s.jover := fun _ _ _ => rfl
@[simp] theorem putClus_ceAgg : ∀ cl k s, (putClus cl k s).ceAgg = s.ceAgg := fun _ _ _ => rfl
@[simp] theorem putClus_powerOn : ∀ cl k s, (putClus cl k s).powerOn = s.powerOn := fun _ _ _ => rfl
@[simp] theorem putClus_bootNo : ∀ cl k s, (putClus cl k s).bootNo = s.bootNo := fun _ _ _ => rfl
@[simp] theorem putClus_bootAt : ∀ cl k s, (putClus cl k s).bootAt = s.bootAt := fun _ _ _ => rfl
@[simp] theorem putClus_now : ∀ cl k s, (putClus cl k s).now = s.now := fun _ _ _ => rfl
@[simp] theorem putClus_resetEdge : ∀ cl k s, (putClus cl k s).resetEdge = s.resetEdge := fun _ _ _ => rfl
@[simp] theorem putClus_freeCtr : ∀ cl k s, (putClus cl k s).freeCtr = s.freeCtr := fun _ _ _ => rfl
@[simp] theorem putClus_pending : ∀ cl k s, (putClus cl k s).pending = s.pending := fun _ _ _ => rfl

@[simp] theorem getCore_putClus : ∀ cl k s n, getCore (putClus cl k s) n = getCore s n := fun _ _ _ _ => rfl
@[simp] theorem getHedge_putClus : ∀ cl k s n, getHedge (putClus cl k s) n = getHedge s n := fun _ _ _ _ => rfl
@[simp] theorem getQueue_putClus : ∀ cl k s n, getQueue (putClus cl k s) n = getQueue s n := fun _ _ _ _ => rfl
@[simp] theorem getBank_putClus : ∀ cl k s n, getBank (putClus cl k s) n = getBank s n := fun _ _ _ _ => rfl
@[simp] theorem getChan_putClus : ∀ cl k s n, getChan (putClus cl k s) n = getChan s n := fun _ _ _ _ => rfl
@[simp] theorem getConn_putClus : ∀ cl k s n, getConn (putClus cl k s) n = getConn s n := fun _ _ _ _ => rfl
@[simp] theorem getIfc_putClus : ∀ cl k s n, getIfc (putClus cl k s) n = getIfc s n := fun _ _ _ _ => rfl
@[simp] theorem getF_putClus : ∀ cl k s d g j, getF (putClus cl k s) d g j = getF s d g j := fun _ _ _ _ _ _ => rfl

/-! ## putConn -/

@[simp] theorem putConn_fld : ∀ k c s, (putConn k c s).fld = s.fld := fun _ _ _ => rfl
@[simp] theorem putConn_mem : ∀ k c s, (putConn k c s).mem = s.mem := fun _ _ _ => rfl
@[simp] theorem putConn_damage : ∀ k c s, (putConn k c s).damage = s.damage := fun _ _ _ => rfl
@[simp] theorem putConn_cores : ∀ k c s, (putConn k c s).cores = s.cores := fun _ _ _ => rfl
@[simp] theorem putConn_packets : ∀ k c s, (putConn k c s).packets = s.packets := fun _ _ _ => rfl
@[simp] theorem putConn_nextPkt : ∀ k c s, (putConn k c s).nextPkt = s.nextPkt := fun _ _ _ => rfl
@[simp] theorem putConn_flits : ∀ k c s, (putConn k c s).flits = s.flits := fun _ _ _ => rfl
@[simp] theorem putConn_rest : ∀ k c s, (putConn k c s).rest = s.rest := fun _ _ _ => rfl
@[simp] theorem putConn_rtrAll : ∀ k c s, (putConn k c s).rtrAll = s.rtrAll := fun _ _ _ => rfl
@[simp] theorem putConn_rtrOwn : ∀ k c s, (putConn k c s).rtrOwn = s.rtrOwn := fun _ _ _ => rfl
@[simp] theorem putConn_detour : ∀ k c s, (putConn k c s).detour = s.detour := fun _ _ _ => rfl
@[simp] theorem putConn_hedges : ∀ k c s, (putConn k c s).hedges = s.hedges := fun _ _ _ => rfl
@[simp] theorem putConn_queues : ∀ k c s, (putConn k c s).queues = s.queues := fun _ _ _ => rfl
@[simp] theorem putConn_evt : ∀ k c s, (putConn k c s).evt = s.evt := fun _ _ _ => rfl
@[simp] theorem putConn_evtStage : ∀ k c s, (putConn k c s).evtStage = s.evtStage := fun _ _ _ => rfl
@[simp] theorem putConn_evtLatch : ∀ k c s, (putConn k c s).evtLatch = s.evtLatch := fun _ _ _ => rfl
@[simp] theorem putConn_ucs : ∀ k c s, (putConn k c s).ucs = s.ucs := fun _ _ _ => rfl
@[simp] theorem putConn_evtDue : ∀ k c s, (putConn k c s).evtDue = s.evtDue := fun _ _ _ => rfl
@[simp] theorem putConn_notices : ∀ k c s, (putConn k c s).notices = s.notices := fun _ _ _ => rfl
@[simp] theorem putConn_holes : ∀ k c s, (putConn k c s).holes = s.holes := fun _ _ _ => rfl
@[simp] theorem putConn_disabled : ∀ k c s, (putConn k c s).disabled = s.disabled := fun _ _ _ => rfl
@[simp] theorem putConn_lost : ∀ k c s, (putConn k c s).lost = s.lost := fun _ _ _ => rfl
@[simp] theorem putConn_pinned : ∀ k c s, (putConn k c s).pinned = s.pinned := fun _ _ _ => rfl
@[simp] theorem putConn_planned : ∀ k c s, (putConn k c s).planned = s.planned := fun _ _ _ => rfl
@[simp] theorem putConn_failed : ∀ k c s, (putConn k c s).failed = s.failed := fun _ _ _ => rfl
@[simp] theorem putConn_shifts : ∀ k c s, (putConn k c s).shifts = s.shifts := fun _ _ _ => rfl
@[simp] theorem putConn_doomed : ∀ k c s, (putConn k c s).doomed = s.doomed := fun _ _ _ => rfl
@[simp] theorem putConn_retired : ∀ k c s, (putConn k c s).retired = s.retired := fun _ _ _ => rfl
@[simp] theorem putConn_wakeReqs : ∀ k c s, (putConn k c s).wakeReqs = s.wakeReqs := fun _ _ _ => rfl
@[simp] theorem putConn_clus : ∀ k c s, (putConn k c s).clus = s.clus := fun _ _ _ => rfl
@[simp] theorem putConn_halfSlips : ∀ k c s, (putConn k c s).halfSlips = s.halfSlips := fun _ _ _ => rfl
@[simp] theorem putConn_skids : ∀ k c s, (putConn k c s).skids = s.skids := fun _ _ _ => rfl
@[simp] theorem putConn_linkSent : ∀ k c s, (putConn k c s).linkSent = s.linkSent := fun _ _ _ => rfl
@[simp] theorem putConn_mapHold : ∀ k c s, (putConn k c s).mapHold = s.mapHold := fun _ _ _ => rfl
@[simp] theorem putConn_mapped : ∀ k c s, (putConn k c s).mapped = s.mapped := fun _ _ _ => rfl
@[simp] theorem putConn_pwr : ∀ k c s, (putConn k c s).pwr = s.pwr := fun _ _ _ => rfl
@[simp] theorem putConn_deadCells : ∀ k c s, (putConn k c s).deadCells = s.deadCells := fun _ _ _ => rfl
@[simp] theorem putConn_grants : ∀ k c s, (putConn k c s).grants = s.grants := fun _ _ _ => rfl
@[simp] theorem putConn_reports : ∀ k c s, (putConn k c s).reports = s.reports := fun _ _ _ => rfl
@[simp] theorem putConn_waited : ∀ k c s, (putConn k c s).waited = s.waited := fun _ _ _ => rfl
@[simp] theorem putConn_dry : ∀ k c s, (putConn k c s).dry = s.dry := fun _ _ _ => rfl
@[simp] theorem putConn_nextGrant : ∀ k c s, (putConn k c s).nextGrant = s.nextGrant := fun _ _ _ => rfl
@[simp] theorem putConn_fuses : ∀ k c s, (putConn k c s).fuses = s.fuses := fun _ _ _ => rfl
@[simp] theorem putConn_flash : ∀ k c s, (putConn k c s).flash = s.flash := fun _ _ _ => rfl
@[simp] theorem putConn_sessions : ∀ k c s, (putConn k c s).sessions = s.sessions := fun _ _ _ => rfl
@[simp] theorem putConn_preqs : ∀ k c s, (putConn k c s).preqs = s.preqs := fun _ _ _ => rfl
@[simp] theorem putConn_served : ∀ k c s, (putConn k c s).served = s.served := fun _ _ _ => rfl
@[simp] theorem putConn_busy : ∀ k c s, (putConn k c s).busy = s.busy := fun _ _ _ => rfl
@[simp] theorem putConn_frags : ∀ k c s, (putConn k c s).frags = s.frags := fun _ _ _ => rfl
@[simp] theorem putConn_resetAt : ∀ k c s, (putConn k c s).resetAt = s.resetAt := fun _ _ _ => rfl
@[simp] theorem putConn_resetReq : ∀ k c s, (putConn k c s).resetReq = s.resetReq := fun _ _ _ => rfl
@[simp] theorem putConn_macKeys : ∀ k c s, (putConn k c s).macKeys = s.macKeys := fun _ _ _ => rfl
@[simp] theorem putConn_boot : ∀ k c s, (putConn k c s).boot = s.boot := fun _ _ _ => rfl
@[simp] theorem putConn_tests : ∀ k c s, (putConn k c s).tests = s.tests := fun _ _ _ => rfl
@[simp] theorem putConn_testedAt : ∀ k c s, (putConn k c s).testedAt = s.testedAt := fun _ _ _ => rfl
@[simp] theorem putConn_idleAt : ∀ k c s, (putConn k c s).idleAt = s.idleAt := fun _ _ _ => rfl
@[simp] theorem putConn_retest : ∀ k c s, (putConn k c s).retest = s.retest := fun _ _ _ => rfl
@[simp] theorem putConn_splits : ∀ k c s, (putConn k c s).splits = s.splits := fun _ _ _ => rfl
@[simp] theorem putConn_fresh : ∀ k c s, (putConn k c s).fresh = s.fresh := fun _ _ _ => rfl
@[simp] theorem putConn_linkErrs : ∀ k c s, (putConn k c s).linkErrs = s.linkErrs := fun _ _ _ => rfl
@[simp] theorem putConn_suspects : ∀ k c s, (putConn k c s).suspects = s.suspects := fun _ _ _ => rfl
@[simp] theorem putConn_hbAt : ∀ k c s, (putConn k c s).hbAt = s.hbAt := fun _ _ _ => rfl
@[simp] theorem putConn_hbQuiet : ∀ k c s, (putConn k c s).hbQuiet = s.hbQuiet := fun _ _ _ => rfl
@[simp] theorem putConn_siteUc : ∀ k c s, (putConn k c s).siteUc = s.siteUc := fun _ _ _ => rfl
@[simp] theorem putConn_siteCe : ∀ k c s, (putConn k c s).siteCe = s.siteCe := fun _ _ _ => rfl
@[simp] theorem putConn_chans : ∀ k c s, (putConn k c s).chans = s.chans := fun _ _ _ => rfl
@[simp] theorem putConn_mcLast : ∀ k c s, (putConn k c s).mcLast = s.mcLast := fun _ _ _ => rfl
@[simp] theorem putConn_filled : ∀ k c s, (putConn k c s).filled = s.filled := fun _ _ _ => rfl
@[simp] theorem putConn_dlog : ∀ k c s, (putConn k c s).dlog = s.dlog := fun _ _ _ => rfl
@[simp] theorem putConn_outbox : ∀ k c s, (putConn k c s).outbox = s.outbox := fun _ _ _ => rfl
@[simp] theorem putConn_banks : ∀ k c s, (putConn k c s).banks = s.banks := fun _ _ _ => rfl
@[simp] theorem putConn_engCyc : ∀ k c s, (putConn k c s).engCyc = s.engCyc := fun _ _ _ => rfl
@[simp] theorem putConn_tagged : ∀ k c s, (putConn k c s).tagged = s.tagged := fun _ _ _ => rfl
@[simp] theorem putConn_sweptAt : ∀ k c s, (putConn k c s).sweptAt = s.sweptAt := fun _ _ _ => rfl
@[simp] theorem putConn_owedEnd : ∀ k c s, (putConn k c s).owedEnd = s.owedEnd := fun _ _ _ => rfl
@[simp] theorem putConn_ifcs : ∀ k c s, (putConn k c s).ifcs = s.ifcs := fun _ _ _ => rfl
@[simp] theorem putConn_jobs : ∀ k c s, (putConn k c s).jobs = s.jobs := fun _ _ _ => rfl
@[simp] theorem putConn_cseq : ∀ k c s, (putConn k c s).cseq = s.cseq := fun _ _ _ => rfl
@[simp] theorem putConn_readys : ∀ k c s, (putConn k c s).readys = s.readys := fun _ _ _ => rfl
@[simp] theorem putConn_syns : ∀ k c s, (putConn k c s).syns = s.syns := fun _ _ _ => rfl
@[simp] theorem putConn_noConnAt : ∀ k c s, (putConn k c s).noConnAt = s.noConnAt := fun _ _ _ => rfl
@[simp] theorem putConn_jbuf : ∀ k c s, (putConn k c s).jbuf = s.jbuf := fun _ _ _ => rfl
@[simp] theorem putConn_jover : ∀ k c s, (putConn k c s).jover = s.jover := fun _ _ _ => rfl
@[simp] theorem putConn_ceAgg : ∀ k c s, (putConn k c s).ceAgg = s.ceAgg := fun _ _ _ => rfl
@[simp] theorem putConn_powerOn : ∀ k c s, (putConn k c s).powerOn = s.powerOn := fun _ _ _ => rfl
@[simp] theorem putConn_bootNo : ∀ k c s, (putConn k c s).bootNo = s.bootNo := fun _ _ _ => rfl
@[simp] theorem putConn_bootAt : ∀ k c s, (putConn k c s).bootAt = s.bootAt := fun _ _ _ => rfl
@[simp] theorem putConn_now : ∀ k c s, (putConn k c s).now = s.now := fun _ _ _ => rfl
@[simp] theorem putConn_resetEdge : ∀ k c s, (putConn k c s).resetEdge = s.resetEdge := fun _ _ _ => rfl
@[simp] theorem putConn_freeCtr : ∀ k c s, (putConn k c s).freeCtr = s.freeCtr := fun _ _ _ => rfl
@[simp] theorem putConn_pending : ∀ k c s, (putConn k c s).pending = s.pending := fun _ _ _ => rfl

@[simp] theorem getCore_putConn : ∀ k c s n, getCore (putConn k c s) n = getCore s n := fun _ _ _ _ => rfl
@[simp] theorem getHedge_putConn : ∀ k c s n, getHedge (putConn k c s) n = getHedge s n := fun _ _ _ _ => rfl
@[simp] theorem getQueue_putConn : ∀ k c s n, getQueue (putConn k c s) n = getQueue s n := fun _ _ _ _ => rfl
@[simp] theorem getBank_putConn : ∀ k c s n, getBank (putConn k c s) n = getBank s n := fun _ _ _ _ => rfl
@[simp] theorem getChan_putConn : ∀ k c s n, getChan (putConn k c s) n = getChan s n := fun _ _ _ _ => rfl
@[simp] theorem getClus_putConn : ∀ k c s n, getClus (putConn k c s) n = getClus s n := fun _ _ _ _ => rfl
@[simp] theorem getIfc_putConn : ∀ k c s n, getIfc (putConn k c s) n = getIfc s n := fun _ _ _ _ => rfl
@[simp] theorem getF_putConn : ∀ k c s d g j, getF (putConn k c s) d g j = getF s d g j := fun _ _ _ _ _ _ => rfl

/-! ## putIfc -/

@[simp] theorem putIfc_fld : ∀ i k s, (putIfc i k s).fld = s.fld := fun _ _ _ => rfl
@[simp] theorem putIfc_mem : ∀ i k s, (putIfc i k s).mem = s.mem := fun _ _ _ => rfl
@[simp] theorem putIfc_damage : ∀ i k s, (putIfc i k s).damage = s.damage := fun _ _ _ => rfl
@[simp] theorem putIfc_cores : ∀ i k s, (putIfc i k s).cores = s.cores := fun _ _ _ => rfl
@[simp] theorem putIfc_packets : ∀ i k s, (putIfc i k s).packets = s.packets := fun _ _ _ => rfl
@[simp] theorem putIfc_nextPkt : ∀ i k s, (putIfc i k s).nextPkt = s.nextPkt := fun _ _ _ => rfl
@[simp] theorem putIfc_flits : ∀ i k s, (putIfc i k s).flits = s.flits := fun _ _ _ => rfl
@[simp] theorem putIfc_rest : ∀ i k s, (putIfc i k s).rest = s.rest := fun _ _ _ => rfl
@[simp] theorem putIfc_rtrAll : ∀ i k s, (putIfc i k s).rtrAll = s.rtrAll := fun _ _ _ => rfl
@[simp] theorem putIfc_rtrOwn : ∀ i k s, (putIfc i k s).rtrOwn = s.rtrOwn := fun _ _ _ => rfl
@[simp] theorem putIfc_detour : ∀ i k s, (putIfc i k s).detour = s.detour := fun _ _ _ => rfl
@[simp] theorem putIfc_hedges : ∀ i k s, (putIfc i k s).hedges = s.hedges := fun _ _ _ => rfl
@[simp] theorem putIfc_queues : ∀ i k s, (putIfc i k s).queues = s.queues := fun _ _ _ => rfl
@[simp] theorem putIfc_evt : ∀ i k s, (putIfc i k s).evt = s.evt := fun _ _ _ => rfl
@[simp] theorem putIfc_evtStage : ∀ i k s, (putIfc i k s).evtStage = s.evtStage := fun _ _ _ => rfl
@[simp] theorem putIfc_evtLatch : ∀ i k s, (putIfc i k s).evtLatch = s.evtLatch := fun _ _ _ => rfl
@[simp] theorem putIfc_ucs : ∀ i k s, (putIfc i k s).ucs = s.ucs := fun _ _ _ => rfl
@[simp] theorem putIfc_evtDue : ∀ i k s, (putIfc i k s).evtDue = s.evtDue := fun _ _ _ => rfl
@[simp] theorem putIfc_notices : ∀ i k s, (putIfc i k s).notices = s.notices := fun _ _ _ => rfl
@[simp] theorem putIfc_holes : ∀ i k s, (putIfc i k s).holes = s.holes := fun _ _ _ => rfl
@[simp] theorem putIfc_disabled : ∀ i k s, (putIfc i k s).disabled = s.disabled := fun _ _ _ => rfl
@[simp] theorem putIfc_lost : ∀ i k s, (putIfc i k s).lost = s.lost := fun _ _ _ => rfl
@[simp] theorem putIfc_pinned : ∀ i k s, (putIfc i k s).pinned = s.pinned := fun _ _ _ => rfl
@[simp] theorem putIfc_planned : ∀ i k s, (putIfc i k s).planned = s.planned := fun _ _ _ => rfl
@[simp] theorem putIfc_failed : ∀ i k s, (putIfc i k s).failed = s.failed := fun _ _ _ => rfl
@[simp] theorem putIfc_shifts : ∀ i k s, (putIfc i k s).shifts = s.shifts := fun _ _ _ => rfl
@[simp] theorem putIfc_doomed : ∀ i k s, (putIfc i k s).doomed = s.doomed := fun _ _ _ => rfl
@[simp] theorem putIfc_retired : ∀ i k s, (putIfc i k s).retired = s.retired := fun _ _ _ => rfl
@[simp] theorem putIfc_wakeReqs : ∀ i k s, (putIfc i k s).wakeReqs = s.wakeReqs := fun _ _ _ => rfl
@[simp] theorem putIfc_clus : ∀ i k s, (putIfc i k s).clus = s.clus := fun _ _ _ => rfl
@[simp] theorem putIfc_halfSlips : ∀ i k s, (putIfc i k s).halfSlips = s.halfSlips := fun _ _ _ => rfl
@[simp] theorem putIfc_skids : ∀ i k s, (putIfc i k s).skids = s.skids := fun _ _ _ => rfl
@[simp] theorem putIfc_linkSent : ∀ i k s, (putIfc i k s).linkSent = s.linkSent := fun _ _ _ => rfl
@[simp] theorem putIfc_mapHold : ∀ i k s, (putIfc i k s).mapHold = s.mapHold := fun _ _ _ => rfl
@[simp] theorem putIfc_mapped : ∀ i k s, (putIfc i k s).mapped = s.mapped := fun _ _ _ => rfl
@[simp] theorem putIfc_pwr : ∀ i k s, (putIfc i k s).pwr = s.pwr := fun _ _ _ => rfl
@[simp] theorem putIfc_deadCells : ∀ i k s, (putIfc i k s).deadCells = s.deadCells := fun _ _ _ => rfl
@[simp] theorem putIfc_grants : ∀ i k s, (putIfc i k s).grants = s.grants := fun _ _ _ => rfl
@[simp] theorem putIfc_reports : ∀ i k s, (putIfc i k s).reports = s.reports := fun _ _ _ => rfl
@[simp] theorem putIfc_waited : ∀ i k s, (putIfc i k s).waited = s.waited := fun _ _ _ => rfl
@[simp] theorem putIfc_dry : ∀ i k s, (putIfc i k s).dry = s.dry := fun _ _ _ => rfl
@[simp] theorem putIfc_nextGrant : ∀ i k s, (putIfc i k s).nextGrant = s.nextGrant := fun _ _ _ => rfl
@[simp] theorem putIfc_fuses : ∀ i k s, (putIfc i k s).fuses = s.fuses := fun _ _ _ => rfl
@[simp] theorem putIfc_flash : ∀ i k s, (putIfc i k s).flash = s.flash := fun _ _ _ => rfl
@[simp] theorem putIfc_sessions : ∀ i k s, (putIfc i k s).sessions = s.sessions := fun _ _ _ => rfl
@[simp] theorem putIfc_preqs : ∀ i k s, (putIfc i k s).preqs = s.preqs := fun _ _ _ => rfl
@[simp] theorem putIfc_served : ∀ i k s, (putIfc i k s).served = s.served := fun _ _ _ => rfl
@[simp] theorem putIfc_busy : ∀ i k s, (putIfc i k s).busy = s.busy := fun _ _ _ => rfl
@[simp] theorem putIfc_frags : ∀ i k s, (putIfc i k s).frags = s.frags := fun _ _ _ => rfl
@[simp] theorem putIfc_resetAt : ∀ i k s, (putIfc i k s).resetAt = s.resetAt := fun _ _ _ => rfl
@[simp] theorem putIfc_resetReq : ∀ i k s, (putIfc i k s).resetReq = s.resetReq := fun _ _ _ => rfl
@[simp] theorem putIfc_macKeys : ∀ i k s, (putIfc i k s).macKeys = s.macKeys := fun _ _ _ => rfl
@[simp] theorem putIfc_boot : ∀ i k s, (putIfc i k s).boot = s.boot := fun _ _ _ => rfl
@[simp] theorem putIfc_tests : ∀ i k s, (putIfc i k s).tests = s.tests := fun _ _ _ => rfl
@[simp] theorem putIfc_testedAt : ∀ i k s, (putIfc i k s).testedAt = s.testedAt := fun _ _ _ => rfl
@[simp] theorem putIfc_idleAt : ∀ i k s, (putIfc i k s).idleAt = s.idleAt := fun _ _ _ => rfl
@[simp] theorem putIfc_retest : ∀ i k s, (putIfc i k s).retest = s.retest := fun _ _ _ => rfl
@[simp] theorem putIfc_splits : ∀ i k s, (putIfc i k s).splits = s.splits := fun _ _ _ => rfl
@[simp] theorem putIfc_fresh : ∀ i k s, (putIfc i k s).fresh = s.fresh := fun _ _ _ => rfl
@[simp] theorem putIfc_linkErrs : ∀ i k s, (putIfc i k s).linkErrs = s.linkErrs := fun _ _ _ => rfl
@[simp] theorem putIfc_suspects : ∀ i k s, (putIfc i k s).suspects = s.suspects := fun _ _ _ => rfl
@[simp] theorem putIfc_hbAt : ∀ i k s, (putIfc i k s).hbAt = s.hbAt := fun _ _ _ => rfl
@[simp] theorem putIfc_hbQuiet : ∀ i k s, (putIfc i k s).hbQuiet = s.hbQuiet := fun _ _ _ => rfl
@[simp] theorem putIfc_siteUc : ∀ i k s, (putIfc i k s).siteUc = s.siteUc := fun _ _ _ => rfl
@[simp] theorem putIfc_siteCe : ∀ i k s, (putIfc i k s).siteCe = s.siteCe := fun _ _ _ => rfl
@[simp] theorem putIfc_chans : ∀ i k s, (putIfc i k s).chans = s.chans := fun _ _ _ => rfl
@[simp] theorem putIfc_mcLast : ∀ i k s, (putIfc i k s).mcLast = s.mcLast := fun _ _ _ => rfl
@[simp] theorem putIfc_filled : ∀ i k s, (putIfc i k s).filled = s.filled := fun _ _ _ => rfl
@[simp] theorem putIfc_dlog : ∀ i k s, (putIfc i k s).dlog = s.dlog := fun _ _ _ => rfl
@[simp] theorem putIfc_outbox : ∀ i k s, (putIfc i k s).outbox = s.outbox := fun _ _ _ => rfl
@[simp] theorem putIfc_banks : ∀ i k s, (putIfc i k s).banks = s.banks := fun _ _ _ => rfl
@[simp] theorem putIfc_engCyc : ∀ i k s, (putIfc i k s).engCyc = s.engCyc := fun _ _ _ => rfl
@[simp] theorem putIfc_tagged : ∀ i k s, (putIfc i k s).tagged = s.tagged := fun _ _ _ => rfl
@[simp] theorem putIfc_sweptAt : ∀ i k s, (putIfc i k s).sweptAt = s.sweptAt := fun _ _ _ => rfl
@[simp] theorem putIfc_owedEnd : ∀ i k s, (putIfc i k s).owedEnd = s.owedEnd := fun _ _ _ => rfl
@[simp] theorem putIfc_conns : ∀ i k s, (putIfc i k s).conns = s.conns := fun _ _ _ => rfl
@[simp] theorem putIfc_jobs : ∀ i k s, (putIfc i k s).jobs = s.jobs := fun _ _ _ => rfl
@[simp] theorem putIfc_cseq : ∀ i k s, (putIfc i k s).cseq = s.cseq := fun _ _ _ => rfl
@[simp] theorem putIfc_readys : ∀ i k s, (putIfc i k s).readys = s.readys := fun _ _ _ => rfl
@[simp] theorem putIfc_syns : ∀ i k s, (putIfc i k s).syns = s.syns := fun _ _ _ => rfl
@[simp] theorem putIfc_noConnAt : ∀ i k s, (putIfc i k s).noConnAt = s.noConnAt := fun _ _ _ => rfl
@[simp] theorem putIfc_jbuf : ∀ i k s, (putIfc i k s).jbuf = s.jbuf := fun _ _ _ => rfl
@[simp] theorem putIfc_jover : ∀ i k s, (putIfc i k s).jover = s.jover := fun _ _ _ => rfl
@[simp] theorem putIfc_ceAgg : ∀ i k s, (putIfc i k s).ceAgg = s.ceAgg := fun _ _ _ => rfl
@[simp] theorem putIfc_powerOn : ∀ i k s, (putIfc i k s).powerOn = s.powerOn := fun _ _ _ => rfl
@[simp] theorem putIfc_bootNo : ∀ i k s, (putIfc i k s).bootNo = s.bootNo := fun _ _ _ => rfl
@[simp] theorem putIfc_bootAt : ∀ i k s, (putIfc i k s).bootAt = s.bootAt := fun _ _ _ => rfl
@[simp] theorem putIfc_now : ∀ i k s, (putIfc i k s).now = s.now := fun _ _ _ => rfl
@[simp] theorem putIfc_resetEdge : ∀ i k s, (putIfc i k s).resetEdge = s.resetEdge := fun _ _ _ => rfl
@[simp] theorem putIfc_freeCtr : ∀ i k s, (putIfc i k s).freeCtr = s.freeCtr := fun _ _ _ => rfl
@[simp] theorem putIfc_pending : ∀ i k s, (putIfc i k s).pending = s.pending := fun _ _ _ => rfl

@[simp] theorem getCore_putIfc : ∀ i k s n, getCore (putIfc i k s) n = getCore s n := fun _ _ _ _ => rfl
@[simp] theorem getHedge_putIfc : ∀ i k s n, getHedge (putIfc i k s) n = getHedge s n := fun _ _ _ _ => rfl
@[simp] theorem getQueue_putIfc : ∀ i k s n, getQueue (putIfc i k s) n = getQueue s n := fun _ _ _ _ => rfl
@[simp] theorem getBank_putIfc : ∀ i k s n, getBank (putIfc i k s) n = getBank s n := fun _ _ _ _ => rfl
@[simp] theorem getChan_putIfc : ∀ i k s n, getChan (putIfc i k s) n = getChan s n := fun _ _ _ _ => rfl
@[simp] theorem getClus_putIfc : ∀ i k s n, getClus (putIfc i k s) n = getClus s n := fun _ _ _ _ => rfl
@[simp] theorem getConn_putIfc : ∀ i k s n, getConn (putIfc i k s) n = getConn s n := fun _ _ _ _ => rfl
@[simp] theorem getF_putIfc : ∀ i k s d g j, getF (putIfc i k s) d g j = getF s d g j := fun _ _ _ _ _ _ => rfl

/-! ## memWrite -/

@[simp] theorem memWrite_fld : ∀ a bs s, (memWrite a bs s).fld = s.fld := fun _ _ _ => rfl
@[simp] theorem memWrite_cores : ∀ a bs s, (memWrite a bs s).cores = s.cores := fun _ _ _ => rfl
@[simp] theorem memWrite_packets : ∀ a bs s, (memWrite a bs s).packets = s.packets := fun _ _ _ => rfl
@[simp] theorem memWrite_nextPkt : ∀ a bs s, (memWrite a bs s).nextPkt = s.nextPkt := fun _ _ _ => rfl
@[simp] theorem memWrite_flits : ∀ a bs s, (memWrite a bs s).flits = s.flits := fun _ _ _ => rfl
@[simp] theorem memWrite_rest : ∀ a bs s, (memWrite a bs s).rest = s.rest := fun _ _ _ => rfl
@[simp] theorem memWrite_rtrAll : ∀ a bs s, (memWrite a bs s).rtrAll = s.rtrAll := fun _ _ _ => rfl
@[simp] theorem memWrite_rtrOwn : ∀ a bs s, (memWrite a bs s).rtrOwn = s.rtrOwn := fun _ _ _ => rfl
@[simp] theorem memWrite_detour : ∀ a bs s, (memWrite a bs s).detour = s.detour := fun _ _ _ => rfl
@[simp] theorem memWrite_hedges : ∀ a bs s, (memWrite a bs s).hedges = s.hedges := fun _ _ _ => rfl
@[simp] theorem memWrite_queues : ∀ a bs s, (memWrite a bs s).queues = s.queues := fun _ _ _ => rfl
@[simp] theorem memWrite_evt : ∀ a bs s, (memWrite a bs s).evt = s.evt := fun _ _ _ => rfl
@[simp] theorem memWrite_evtStage : ∀ a bs s, (memWrite a bs s).evtStage = s.evtStage := fun _ _ _ => rfl
@[simp] theorem memWrite_evtLatch : ∀ a bs s, (memWrite a bs s).evtLatch = s.evtLatch := fun _ _ _ => rfl
@[simp] theorem memWrite_ucs : ∀ a bs s, (memWrite a bs s).ucs = s.ucs := fun _ _ _ => rfl
@[simp] theorem memWrite_evtDue : ∀ a bs s, (memWrite a bs s).evtDue = s.evtDue := fun _ _ _ => rfl
@[simp] theorem memWrite_notices : ∀ a bs s, (memWrite a bs s).notices = s.notices := fun _ _ _ => rfl
@[simp] theorem memWrite_holes : ∀ a bs s, (memWrite a bs s).holes = s.holes := fun _ _ _ => rfl
@[simp] theorem memWrite_disabled : ∀ a bs s, (memWrite a bs s).disabled = s.disabled := fun _ _ _ => rfl
@[simp] theorem memWrite_lost : ∀ a bs s, (memWrite a bs s).lost = s.lost := fun _ _ _ => rfl
@[simp] theorem memWrite_pinned : ∀ a bs s, (memWrite a bs s).pinned = s.pinned := fun _ _ _ => rfl
@[simp] theorem memWrite_planned : ∀ a bs s, (memWrite a bs s).planned = s.planned := fun _ _ _ => rfl
@[simp] theorem memWrite_failed : ∀ a bs s, (memWrite a bs s).failed = s.failed := fun _ _ _ => rfl
@[simp] theorem memWrite_shifts : ∀ a bs s, (memWrite a bs s).shifts = s.shifts := fun _ _ _ => rfl
@[simp] theorem memWrite_doomed : ∀ a bs s, (memWrite a bs s).doomed = s.doomed := fun _ _ _ => rfl
@[simp] theorem memWrite_retired : ∀ a bs s, (memWrite a bs s).retired = s.retired := fun _ _ _ => rfl
@[simp] theorem memWrite_wakeReqs : ∀ a bs s, (memWrite a bs s).wakeReqs = s.wakeReqs := fun _ _ _ => rfl
@[simp] theorem memWrite_clus : ∀ a bs s, (memWrite a bs s).clus = s.clus := fun _ _ _ => rfl
@[simp] theorem memWrite_halfSlips : ∀ a bs s, (memWrite a bs s).halfSlips = s.halfSlips := fun _ _ _ => rfl
@[simp] theorem memWrite_skids : ∀ a bs s, (memWrite a bs s).skids = s.skids := fun _ _ _ => rfl
@[simp] theorem memWrite_linkSent : ∀ a bs s, (memWrite a bs s).linkSent = s.linkSent := fun _ _ _ => rfl
@[simp] theorem memWrite_mapHold : ∀ a bs s, (memWrite a bs s).mapHold = s.mapHold := fun _ _ _ => rfl
@[simp] theorem memWrite_mapped : ∀ a bs s, (memWrite a bs s).mapped = s.mapped := fun _ _ _ => rfl
@[simp] theorem memWrite_pwr : ∀ a bs s, (memWrite a bs s).pwr = s.pwr := fun _ _ _ => rfl
@[simp] theorem memWrite_deadCells : ∀ a bs s, (memWrite a bs s).deadCells = s.deadCells := fun _ _ _ => rfl
@[simp] theorem memWrite_grants : ∀ a bs s, (memWrite a bs s).grants = s.grants := fun _ _ _ => rfl
@[simp] theorem memWrite_reports : ∀ a bs s, (memWrite a bs s).reports = s.reports := fun _ _ _ => rfl
@[simp] theorem memWrite_waited : ∀ a bs s, (memWrite a bs s).waited = s.waited := fun _ _ _ => rfl
@[simp] theorem memWrite_dry : ∀ a bs s, (memWrite a bs s).dry = s.dry := fun _ _ _ => rfl
@[simp] theorem memWrite_nextGrant : ∀ a bs s, (memWrite a bs s).nextGrant = s.nextGrant := fun _ _ _ => rfl
@[simp] theorem memWrite_fuses : ∀ a bs s, (memWrite a bs s).fuses = s.fuses := fun _ _ _ => rfl
@[simp] theorem memWrite_flash : ∀ a bs s, (memWrite a bs s).flash = s.flash := fun _ _ _ => rfl
@[simp] theorem memWrite_sessions : ∀ a bs s, (memWrite a bs s).sessions = s.sessions := fun _ _ _ => rfl
@[simp] theorem memWrite_preqs : ∀ a bs s, (memWrite a bs s).preqs = s.preqs := fun _ _ _ => rfl
@[simp] theorem memWrite_served : ∀ a bs s, (memWrite a bs s).served = s.served := fun _ _ _ => rfl
@[simp] theorem memWrite_busy : ∀ a bs s, (memWrite a bs s).busy = s.busy := fun _ _ _ => rfl
@[simp] theorem memWrite_frags : ∀ a bs s, (memWrite a bs s).frags = s.frags := fun _ _ _ => rfl
@[simp] theorem memWrite_resetAt : ∀ a bs s, (memWrite a bs s).resetAt = s.resetAt := fun _ _ _ => rfl
@[simp] theorem memWrite_resetReq : ∀ a bs s, (memWrite a bs s).resetReq = s.resetReq := fun _ _ _ => rfl
@[simp] theorem memWrite_macKeys : ∀ a bs s, (memWrite a bs s).macKeys = s.macKeys := fun _ _ _ => rfl
@[simp] theorem memWrite_boot : ∀ a bs s, (memWrite a bs s).boot = s.boot := fun _ _ _ => rfl
@[simp] theorem memWrite_tests : ∀ a bs s, (memWrite a bs s).tests = s.tests := fun _ _ _ => rfl
@[simp] theorem memWrite_testedAt : ∀ a bs s, (memWrite a bs s).testedAt = s.testedAt := fun _ _ _ => rfl
@[simp] theorem memWrite_idleAt : ∀ a bs s, (memWrite a bs s).idleAt = s.idleAt := fun _ _ _ => rfl
@[simp] theorem memWrite_retest : ∀ a bs s, (memWrite a bs s).retest = s.retest := fun _ _ _ => rfl
@[simp] theorem memWrite_splits : ∀ a bs s, (memWrite a bs s).splits = s.splits := fun _ _ _ => rfl
@[simp] theorem memWrite_fresh : ∀ a bs s, (memWrite a bs s).fresh = s.fresh := fun _ _ _ => rfl
@[simp] theorem memWrite_linkErrs : ∀ a bs s, (memWrite a bs s).linkErrs = s.linkErrs := fun _ _ _ => rfl
@[simp] theorem memWrite_suspects : ∀ a bs s, (memWrite a bs s).suspects = s.suspects := fun _ _ _ => rfl
@[simp] theorem memWrite_hbAt : ∀ a bs s, (memWrite a bs s).hbAt = s.hbAt := fun _ _ _ => rfl
@[simp] theorem memWrite_hbQuiet : ∀ a bs s, (memWrite a bs s).hbQuiet = s.hbQuiet := fun _ _ _ => rfl
@[simp] theorem memWrite_siteUc : ∀ a bs s, (memWrite a bs s).siteUc = s.siteUc := fun _ _ _ => rfl
@[simp] theorem memWrite_siteCe : ∀ a bs s, (memWrite a bs s).siteCe = s.siteCe := fun _ _ _ => rfl
@[simp] theorem memWrite_chans : ∀ a bs s, (memWrite a bs s).chans = s.chans := fun _ _ _ => rfl
@[simp] theorem memWrite_mcLast : ∀ a bs s, (memWrite a bs s).mcLast = s.mcLast := fun _ _ _ => rfl
@[simp] theorem memWrite_filled : ∀ a bs s, (memWrite a bs s).filled = s.filled := fun _ _ _ => rfl
@[simp] theorem memWrite_dlog : ∀ a bs s, (memWrite a bs s).dlog = s.dlog := fun _ _ _ => rfl
@[simp] theorem memWrite_outbox : ∀ a bs s, (memWrite a bs s).outbox = s.outbox := fun _ _ _ => rfl
@[simp] theorem memWrite_banks : ∀ a bs s, (memWrite a bs s).banks = s.banks := fun _ _ _ => rfl
@[simp] theorem memWrite_engCyc : ∀ a bs s, (memWrite a bs s).engCyc = s.engCyc := fun _ _ _ => rfl
@[simp] theorem memWrite_tagged : ∀ a bs s, (memWrite a bs s).tagged = s.tagged := fun _ _ _ => rfl
@[simp] theorem memWrite_sweptAt : ∀ a bs s, (memWrite a bs s).sweptAt = s.sweptAt := fun _ _ _ => rfl
@[simp] theorem memWrite_owedEnd : ∀ a bs s, (memWrite a bs s).owedEnd = s.owedEnd := fun _ _ _ => rfl
@[simp] theorem memWrite_conns : ∀ a bs s, (memWrite a bs s).conns = s.conns := fun _ _ _ => rfl
@[simp] theorem memWrite_ifcs : ∀ a bs s, (memWrite a bs s).ifcs = s.ifcs := fun _ _ _ => rfl
@[simp] theorem memWrite_jobs : ∀ a bs s, (memWrite a bs s).jobs = s.jobs := fun _ _ _ => rfl
@[simp] theorem memWrite_cseq : ∀ a bs s, (memWrite a bs s).cseq = s.cseq := fun _ _ _ => rfl
@[simp] theorem memWrite_readys : ∀ a bs s, (memWrite a bs s).readys = s.readys := fun _ _ _ => rfl
@[simp] theorem memWrite_syns : ∀ a bs s, (memWrite a bs s).syns = s.syns := fun _ _ _ => rfl
@[simp] theorem memWrite_noConnAt : ∀ a bs s, (memWrite a bs s).noConnAt = s.noConnAt := fun _ _ _ => rfl
@[simp] theorem memWrite_jbuf : ∀ a bs s, (memWrite a bs s).jbuf = s.jbuf := fun _ _ _ => rfl
@[simp] theorem memWrite_jover : ∀ a bs s, (memWrite a bs s).jover = s.jover := fun _ _ _ => rfl
@[simp] theorem memWrite_ceAgg : ∀ a bs s, (memWrite a bs s).ceAgg = s.ceAgg := fun _ _ _ => rfl
@[simp] theorem memWrite_powerOn : ∀ a bs s, (memWrite a bs s).powerOn = s.powerOn := fun _ _ _ => rfl
@[simp] theorem memWrite_bootNo : ∀ a bs s, (memWrite a bs s).bootNo = s.bootNo := fun _ _ _ => rfl
@[simp] theorem memWrite_bootAt : ∀ a bs s, (memWrite a bs s).bootAt = s.bootAt := fun _ _ _ => rfl
@[simp] theorem memWrite_now : ∀ a bs s, (memWrite a bs s).now = s.now := fun _ _ _ => rfl
@[simp] theorem memWrite_resetEdge : ∀ a bs s, (memWrite a bs s).resetEdge = s.resetEdge := fun _ _ _ => rfl
@[simp] theorem memWrite_freeCtr : ∀ a bs s, (memWrite a bs s).freeCtr = s.freeCtr := fun _ _ _ => rfl
@[simp] theorem memWrite_pending : ∀ a bs s, (memWrite a bs s).pending = s.pending := fun _ _ _ => rfl

@[simp] theorem getCore_memWrite : ∀ a bs s n, getCore (memWrite a bs s) n = getCore s n := fun _ _ _ _ => rfl
@[simp] theorem getHedge_memWrite : ∀ a bs s n, getHedge (memWrite a bs s) n = getHedge s n := fun _ _ _ _ => rfl
@[simp] theorem getQueue_memWrite : ∀ a bs s n, getQueue (memWrite a bs s) n = getQueue s n := fun _ _ _ _ => rfl
@[simp] theorem getBank_memWrite : ∀ a bs s n, getBank (memWrite a bs s) n = getBank s n := fun _ _ _ _ => rfl
@[simp] theorem getChan_memWrite : ∀ a bs s n, getChan (memWrite a bs s) n = getChan s n := fun _ _ _ _ => rfl
@[simp] theorem getClus_memWrite : ∀ a bs s n, getClus (memWrite a bs s) n = getClus s n := fun _ _ _ _ => rfl
@[simp] theorem getConn_memWrite : ∀ a bs s n, getConn (memWrite a bs s) n = getConn s n := fun _ _ _ _ => rfl
@[simp] theorem getIfc_memWrite : ∀ a bs s n, getIfc (memWrite a bs s) n = getIfc s n := fun _ _ _ _ => rfl
@[simp] theorem getF_memWrite : ∀ a bs s d g j, getF (memWrite a bs s) d g j = getF s d g j := fun _ _ _ _ _ _ => rfl

end Sys2Proof.Machine
end

