-- ==== Sys2Proof/Laws/Issue.lean ====
section
/-!
SUPPORT. What an issue does, once: the body of a ready instruction runs on the core at its issue cycle, and the counts of an instruction touch
nothing but the core's bank, tag buffer and their pages.
-/
namespace Sys2Proof.Machine

/-- Registers without damage are read as they are. -/
theorem meetRegs_clean (c : Nat) (reads : List Nat) (s : State) (h : ∀ r ∈ reads, tblGet 0 (getCore s c).regBad r = 0) :
    meetRegs c reads s = (false, s) := by
  induction reads <;> simp_all [meetRegs]

/-- The body of a ready instruction runs on the core at its issue cycle. -/
theorem issue_ready (c : Nat) (used : List (Nat × Nat)) (reads : List Nat) (w : IWord) (body : Core → State → State) (s : State) (rd : Nat)
    (h : Ready c used reads w s rd) : issue c used reads w body s rd = body (waitReads reads (getCore s c)) s := by
  obtain ⟨run, inside, free, sound, whole, zero⟩ := h
  have htpm : meetTpm c s = (false, s) := by unfold meetTpm; simp only [sound]
  have hfree : ¬ ((rd :: reads).any fun r => decide (r ≠ 0) && decide (r ∈ heldRegs (getCore s c))) = true := by
    simp only [List.any_eq_true, not_exists]; grind
  simp only [issue, run, Bool.true_eq_false, if_false, if_neg (Nat.not_le.mpr inside), if_neg hfree, htpm, zero, meetRegs_clean c reads s whole]
  rfl

/-! ## Counts -/

theorem countsOnly_refl (c : Nat) (s : State) : countsOnly c s s := ⟨rfl, fun _ _ => rfl, fun _ _ => rfl, fun _ _ => rfl⟩

theorem countsOnly_trans (c : Nat) (s t u : State) (h1 : countsOnly c s t) (h2 : countsOnly c t u) : countsOnly c s u := by
  obtain ⟨a1, b1, d1, e1⟩ := h1
  obtain ⟨a2, b2, d2, e2⟩ := h2
  refine ⟨?_, fun k hk => (b2 k hk).trans (b1 k hk), fun b hb => (d2 b hb).trans (d1 b hb), fun d hd => (e2 d hd).trans (e1 d hd)⟩
  rw [a2, a1]

/-- A field of the counting pages may be set. -/
theorem countsOnly_setF (c b : Nat) (f : Field) (v : Nat) (s : State) (i : Nat) (h : counting c (fkey b f i)) :
    countsOnly c s (setF b f v s i) := by
  refine ⟨rfl, fun k hk => ?_, fun _ _ => rfl, fun _ _ => rfl⟩
  exact tblFind_put_other _ _ _ _ _ (fun he => hk (he ▸ h))

theorem countsOnly_putBank (c : Nat) (k : Bank) (s : State) : countsOnly c s (putBank c k s) :=
  ⟨rfl, fun _ _ => rfl, fun _ hb => getBank_putBank_other _ _ _ _ hb, fun _ _ => rfl⟩

theorem countsOnly_noteRise (c base en : Nat) (s : State) : countsOnly c s (noteRise base en s) := by
  unfold noteRise; split <;> exact ⟨rfl, fun _ _ => rfl, fun _ _ => rfl, fun _ _ => rfl⟩

theorem countsOnly_setIsr (c b : Nat) (s : State) (hc : c < 4096) : countsOnly c s (setIsr (bankBase c) b s) := by
  have hb : bankBase c = corePageCnt c := by simp [bankBase, hc]
  unfold setIsr
  split
  · exact countsOnly_refl c s
  · refine countsOnly_trans c _ _ _ ?_ (countsOnly_noteRise c _ _ _)
    unfold orF
    apply countsOnly_setF
    rw [hb]
    unfold counting inRange fkey tagPage corePageCnt coreWindow
    simp only [Hdr.isr]
    omega

theorem countsOnly_bankFix (c i n : Nat) (s : State) : countsOnly c s (bankFix c i n s) := countsOnly_putBank c _ s

theorem countsOnly_bankProg (c i n : Nat) (s : State) (hc : c < 4096) : countsOnly c s (bankProg c i n s) := by
  unfold bankProg
  simp only
  split
  · exact countsOnly_trans c _ _ _ (countsOnly_putBank c _ s) (countsOnly_setIsr c _ _ hc)
  · exact countsOnly_putBank c _ s

theorem countsOnly_foldl {α : Type} (c : Nat) (f : State → α → State) (hf : ∀ s x, countsOnly c s (f s x)) (l : List α) (s : State) :
    countsOnly c s (l.foldl f s) := by
  induction l generalizing s with
  | nil => exact countsOnly_refl c s
  | cons x t ih => exact countsOnly_trans c _ _ _ (hf s x) (ih _)

theorem countsOnly_bankEv (c code n : Nat) (s : State) (hc : c < 4096) : countsOnly c s (bankEv c code n s) := by
  unfold bankEv
  split
  · exact countsOnly_refl c s
  · refine countsOnly_foldl c _ (fun s i => ?_) _ _
    split
    · exact countsOnly_bankProg c i n s hc
    · exact countsOnly_refl c s

theorem countsOnly_bankUnits (c code n : Nat) (s : State) (hc : c < 4096) : countsOnly c s (bankUnits c code n s) :=
  countsOnly_trans c _ _ _ (countsOnly_putBank c _ s) (countsOnly_bankEv c _ _ _ hc)

theorem countsOnly_bankBytes (c w n : Nat) (s : State) : countsOnly c s (bankBytes c w n s) := countsOnly_putBank c _ s

theorem countsOnly_coreEv (c code n : Nat) (s : State) (hc : c < 4096) : countsOnly c s (coreEv c code n s) := by
  unfold coreEv
  split
  · exact countsOnly_bankEv c _ _ _ hc
  · exact countsOnly_refl c s

theorem countsOnly_coreUnits (c code n : Nat) (s : State) (hc : c < 4096) : countsOnly c s (coreUnits c code n s) := by
  unfold coreUnits
  split
  · exact countsOnly_bankUnits c _ _ _ hc
  · exact countsOnly_refl c s

theorem countsOnly_coreBytes (c w n : Nat) (s : State) : countsOnly c s (coreBytes c w n s) := by
  unfold coreBytes
  split
  · exact countsOnly_bankBytes c _ _ _
  · exact countsOnly_refl c s

theorem countsOnly_draw (c : Nat) (s : State) : countsOnly c s (draw s).2 :=
  ⟨rfl, fun _ _ => rfl, fun _ _ => rfl, fun _ _ => rfl⟩

theorem countsOnly_tagIssue (c cls op at_ pc : Nat) (s : State) : countsOnly c s (tagIssue c cls op at_ pc s) := by
  unfold tagIssue
  split
  · exact countsOnly_refl c s
  · simp only
    split
    · exact countsOnly_draw c s
    · split
      · refine countsOnly_trans c _ _ _ (countsOnly_draw c s) ?_
        unfold addF
        apply countsOnly_setF
        unfold counting inRange fkey tagPage corePageCnt coreWindow
        simp only [Tag.skip]
        omega
      · refine countsOnly_trans c _ _ _ (countsOnly_trans c _ _ _ (countsOnly_draw c s) (countsOnly_draw c _)) ?_
        refine ⟨rfl, fun _ _ => rfl, fun _ _ => rfl, fun d hd => ?_⟩
        show tblFind d (tblInsert c _ _) = _
        rw [tblFind_insert, if_neg hd]
        rfl

theorem countsOnly_if (c : Nat) (p : Prop) [Decidable p] (s t u : State) (h1 : countsOnly c s t) (h2 : countsOnly c s u) :
    countsOnly c s (if p then t else u) := by
  split
  · exact h1
  · exact h2

/-- The counts of a command of core c touch nothing but what counts and tags its work. -/
theorem counted_countsOnly (cls op c : Nat) (w : IWord) (s t : State) (hc : c < 4096) : countsOnly c t (counted cls op c w s t) := by
  have ev := fun code n u => countsOnly_coreEv c code n u hc
  have h1 := ev 0x1A ((getCore t c).hold - (getCore s c).hold) t
  unfold counted
  simp only
  generalize coreEv c 0x1A ((getCore t c).hold - (getCore s c).hold) t = t1 at h1 ⊢
  have h2 := countsOnly_if c ((cls = 4 ∧ op = 3) ∨ (cls = 5 ∧ op = 5)) t1 _ t1
    (ev 0x1C ((getCore t c).hold - (getCore s c).hold) t1) (countsOnly_refl c t1)
  generalize (if (cls = 4 ∧ op = 3) ∨ (cls = 5 ∧ op = 5) then coreEv c 0x1C ((getCore t c).hold - (getCore s c).hold) t1 else t1) = t2 at h2 ⊢
  have h3 := countsOnly_if c (coreCounts t2 c = true) t2 _ t2 (countsOnly_bankFix c 1 1 t2) (countsOnly_refl c t2)
  generalize (if coreCounts t2 c = true then bankFix c 1 1 t2 else t2) = t3 at h3 ⊢
  have h4 := ev 0x10 1 t3
  generalize coreEv c 0x10 1 t3 = t4 at h4 ⊢
  have h5 := countsOnly_coreUnits c 0x11 (if op = 0x1B then 0 else min (getCore s c).vl (modLanes (fMod w))) t4 hc
  generalize coreUnits c 0x11 (if op = 0x1B then 0 else min (getCore s c).vl (modLanes (fMod w))) t4 = t5 at h5 ⊢
  have h6 := countsOnly_if c (cls = 1) t3 t5 t3 (countsOnly_trans c _ _ _ h4 h5) (countsOnly_refl c t3)
  generalize (if cls = 1 then t5 else t3) = t6 at h6 ⊢
  have h7 := countsOnly_tagIssue c cls op ((getCore s c).cyc + ((getCore t c).hold - (getCore s c).hold)) (getCore s c).pc t6
  have h12 := countsOnly_trans c _ _ _ h1 h2
  apply countsOnly_if
  · exact h12
  · exact countsOnly_trans c _ _ _ h12 (countsOnly_trans c _ _ _ h3 (countsOnly_trans c _ _ _ h6 h7))

/-- What counting leaves of any core. -/
theorem countsOnly_getCore (c d : Nat) (s t : State) (h : countsOnly c s t) : getCore t d = getCore s d := by
  have : t.cores = s.cores := by rw [h.1]
  unfold getCore
  rw [this]

end Sys2Proof.Machine
end

