-- ==== Sys2Proof/Tests/Slice0.lean ====
section
/-!
SUPPORT. The model's own tests: an ill-formed command for each check of WellFormed, for each statement of Certificates/Slice0 operands and a state that meet its
hypotheses, and results worked out by hand from the rules.
-/
namespace Sys2Proof.Tests
set_option Elab.async false
open Sys2Proof.Machine

/-! ## Small states -/

/-- An instruction word of values at bit positions. -/
def word (l : List (Nat × Nat)) : IWord := BitVec.ofNat 56 (l.foldl (fun n e => n + e.1 * 2 ^ e.2) 0)

/-- A core in RUN at the first address of its program. -/
def runs : Core := { mode := .run, pc := 0x200 }

/-- The reset state with core 0 as given. -/
def one (k : Core) : State := { State.reset with cores := [(0, k)] }

/-- The state with register fields set: page, field, index, value. -/
def sets (l : List (Nat × Field × Nat × Nat)) (s : State) : State := l.foldl (fun s e => setF e.1 e.2.1 e.2.2.2 s e.2.2.1) s

/-- An address-mode generator g of core 0: base, log2 of the element's size, count. -/
def gen (g base size n : Nat) (s : State) : State :=
  let p := vecPage 0
  sets [(p, Vec.genBase, g, base), (p, Vec.genEsize, g, size), (p, Vec.genCount0, g, n), (p, Vec.genCount1, g, 1), (p, Vec.genCount2, g, 1),
    (p, Vec.genStride0, g, 2 ^ size)] s

/-- Where nothing is damaged, every generator's words are clean, and no damaged word is written in part. -/
theorem genClean_of (c : Nat) (g : List Nat) (first n : Nat) (s : State) (h : s.damage = []) : genClean c g first n s := Or.inr fun _ _ _ => by simp [damageIn, h]
theorem wholeWords_of (s : State) (a n : Nat) (h : s.damage = []) : wholeWords s a n := by simp [wholeWords, damageIn, h]

/-! ## Ill-formed commands -/

theorem test_set_mod_refused : wellFormed (.merge 0 (word [(2, 32)])) = false ∧ wellFormed (.join 0 (word [(3, 32)])) = false := by decide +kernel
theorem test_mere_request_refused : wellFormed (.mereRequest 0 (.write 31 [1, 2]) .good) = false ∧ wellFormed (.mereRequest 0 (.write 0 []) .good) = false := by decide +kernel

theorem test_frame_refused : let f : Frame := { parity := false, fcs := true, fecCe := 0, fecUc := 0, sec := none, dmac := 7, vid := 1, plain := true, saddr := 9, sum := true, udp := 47311, ce := false, bytes := [], pause := none, daddr := 0 };
    wellFormed (.frameReceive 0 { f with bytes := List.replicate 9171 0 }) = false ∧ wellFormed (.frameReceive 0 { f with bytes := List.replicate 9170 0 }) = true := by decide +kernel
theorem test_debug_refused : wellFormed (.debugConnectorAccess (.regRead 2)) = false ∧ wellFormed (.debugConnectorAccess (.regWrite 1 0)) = false ∧ wellFormed (.debugConnectorAccess (.memRead 0 0)) = false ∧
    wellFormed (.debugConnectorAccess (.memWrite 0 [])) = false ∧ wellFormed (.debugConnectorAccess (.memWrite 0 (List.replicate 257 0))) = false := by decide +kernel
theorem test_wave_refused : wellFormed (.clusterWave [⟨1, none, [], 0⟩, ⟨1, none, [], 0⟩]) = false ∧ wellFormed (.clusterWave [⟨1, none, [2, 2], 0⟩]) = false := by decide +kernel
theorem test_bars_refused : wellFormed (.barLost 0 .low 290) = false ∧ wellFormed (.barLost 0 .overvolt 420) = false ∧ wellFormed (.barReversed 1 .reversed 10) = false := by decide +kernel
theorem test_lists_refused : wellFormed (.stepSwitch [3, 3]) = false ∧ wellFormed (.bulkEnable [71, 71] 0) = false ∧ wellFormed (.weightRefit 0 [1, 2, 3, 4, 5, 6, 7] 0) = false := by decide +kernel
theorem test_keys_refused : wellFormed (.steerTable (some [])) = false ∧ wellFormed (.steerTable (some (List.replicate 129 0))) = false ∧ wellFormed (.macsecKey (some (List.replicate 31 0))) = false := by decide +kernel

/-! ## Operands and states that meet the statements' hypotheses: tile programs -/

/-- AluResults, with MOD [0] 0 and 1 and register 31. -/
theorem witness_AluResults : let w0 := word [(31, 51), (1, 46), (2, 41)]; let w1 := word [(0, 51), (31, 46), (1, 32), (0xFFFFFFFF, 0)];
    fMod w0 ≤ 1 ∧ Ready 0 (aluUsed w0) (aluReads w0) w0 (one runs) (fRd w0) ∧ fMod w1 = 1 ∧ Ready 0 (aluUsed w1) (aluReads w1) w1 (one runs) (fRd w1) := by
  unfold Ready; decide +kernel

theorem witness_ScalarMoves : let s := one runs;
    Ready 0 [] [] (word []) s ∧ Ready 0 [pRa, pImm] [fRa (word [(3, 46), (9, 0)])] (word [(3, 46), (9, 0)]) s ∧
    Ready 0 [pRd, pImm] [] (word [(31, 51), (0x80000000, 0)]) s 31 ∧ Ready 0 [pRd, pRa, pImm] [4] (word [(1, 51), (4, 46), (7, 0)]) s 1 ∧
    Ready 0 [pRd] [] (word [(31, 51)]) s 31 := by
  unfold Ready; decide +kernel

/-- LoadsAndStores: loads at the last aligned address of the scratchpad. -/
theorem witness_LoadsAndStores_loads : let s := one runs; let w := fun n => word [(1, 51), (2, 46), (spmSize - n, 0)]; let a := fun n => (sreg (getCore s 0) (fRa (w n)) + fImmS (w n)).toNat;
    ∀ n ∈ [8, 4], Ready 0 [pRd, pRa, pImm] [fRa (w n)] (w n) s 1 ∧ a n % n = 0 ∧ a n + n ≤ spmSize ∧ damageIn s (spmBase 0 + a n) n = [] := by
  unfold Ready; decide +kernel

/-- LoadsAndStores: ST and STW at the last aligned address, VST of 256 bytes at the last aligned to 64. -/
theorem witness_LoadsAndStores_stores : let s := one runs; let a := fun w r => (sreg (getCore s 0) r + fImmS w).toNat;
    (∀ n ∈ [8, 4], let w := word [(2, 46), (3, 41), (spmSize - n, 0)]; Ready 0 [pRa, pRb, pImm] [fRa w, fRb w] w s ∧ a w (fRa w) % n = 0 ∧ a w (fRa w) + n ≤ spmSize) ∧
    s.damage = [] ∧ (let w := word [(31, 46), (3, 41), (6, 32), (spmSize - 256, 0)]; vecType (fMod w) = some .int8 ∧
      Ready 0 [pRa, pRb, pMod, pImm] [32 + fRa w, fRb w] w s ∧ a w (fRb w) % 64 = 0 ∧ a w (fRb w) + fmtBytes .int8 * active (getCore s 0) .int8 ≤ spmSize) := by
  unfold Ready; decide +kernel

/-- BranchesAndLoops: each condition taken, backward to the first legal target, and not taken. -/
theorem witness_BranchesAndLoops_branches : let w := word [(1, 46), (2, 41), (0xFFFFFFFF, 0)];
    ∀ e ∈ branchOps, ∃ x ∈ [(0, 0), (1, 0), (0, 1), (0, 2 ^ 64 - 1)], ∃ y ∈ [(0, 0), (1, 0), (0, 1)],
      (∀ v ∈ [x, y], Ready 0 [pRa, pRb, pImm] [fRa w, fRb w] w (one { runs with pc := 0x208, sregs := [(1, BitVec.ofNat 64 v.1), (2, BitVec.ofNat 64 v.2)] })) ∧
      e.2 (BitVec.ofNat 64 x.1) (BitVec.ofNat 64 x.2) = true ∧ e.2 (BitVec.ofNat 64 y.1) (BitVec.ofNat 64 y.2) = false ∧
      ((0x200 : Nat) : Int) = ((0x208 : Nat) : Int) + 8 * (fImmS w).toInt ∧ goodTarget 0x200 = true := by
  unfold Ready; decide +kernel

/-- BranchesAndLoops: a jump to the last instruction of the memory, a return to it, a fourth level that ends with the third, and a count of zero. -/
theorem witness_BranchesAndLoops_jumps : let l : LoopLevel := ⟨0x200, 0x218, 2⟩; let s := one { runs with pc := 0x208, sregs := [(1, 0x1FFF8)], loops := [l, l, l] };
    (let w := word [(31, 51), ((0x1FFF8 - 0x208) / 8, 0)]; ((0x1FFF8 : Nat) : Int) = ((0x208 : Nat) : Int) + 8 * (fImmS w).toInt ∧ goodTarget 0x1FFF8 = true ∧ Ready 0 [pRd, pImm] [] w s 31) ∧
    (let w := word [(1, 46)]; goodTarget (sreg (getCore s 0) (fRa w)).toNat = true ∧ Ready 0 [pRa] [fRa w] w s) ∧
    (∀ r ∈ [0, 1], let w := word [(r, 46), (1, 0)]; Ready 0 [pRa, pImm] [fRa w] w s ∧ (getCore s 0).loops.length < 4 ∧ 1 ≤ fImm w ∧ fImm w ≤ 4096 ∧
      (∀ l ∈ (getCore s 0).loops.head?, (getCore s 0).pc + 8 + 8 * fImm w ≤ l.stop)) := by
  unfold Ready; decide +kernel

theorem witness_VectorLanes : let s := one { runs with vl := 0 }; let w := word [(31, 51), (30, 46), (29, 41), (6, 32)]; let v := word [(31, 51), (30, 46), (29, 41), (28, 36), (3, 32)];
    vecArith (fMod w) = some .int8 ∧ Ready 0 [pRd, pRa, pRb, pMod] [32 + fRa w, 32 + fRb w] w s ∧
    vecArith (fMod v) = some .bf16 ∧ Ready 0 [pRd, pRa, pRb, pRc, pMod] [32 + fRa v, 32 + fRb v, 32 + fRc v] v s := by
  unfold Ready; decide +kernel

/-- VectorConversions: FP8 to FP32 in the last quarter, and a transcendental of FP32. -/
theorem witness_VectorConversions : let s := one runs; let w := word [(1, 51), (2, 46), (1, 32), (5 + 3 * 2 ^ 4 + 2 ^ 8, 0)]; let v := word [(1, 51), (2, 46), (5, 32)];
    vecType (fMod w) = some .e4m3 ∧ vecType (wf w 0 4) = some .fp32 ∧
    wf w 4 2 < max (laneCount .e4m3) (laneCount .fp32) / min (laneCount .e4m3) (laneCount .fp32) ∧
    Ready 0 [pRd, pRa, pMod, (0, 4), (4, 2), (8, 1)] [32 + fRa w] w s ∧ vecTrans (fMod v) = some .fp32 ∧ Ready 0 [pRd, pRa, pMod] [32 + fRa v] v s := by
  unfold Ready; decide +kernel

theorem witness_VectorReductions : let s := one { runs with vl := 0 }; let w := word [(1, 51), (2, 46), (8, 32)]; let v := word [(1, 51), (2, 46), (3, 41), (5, 32)];
    vecArith (fMod w) = some .int32 ∧ Ready 0 [pRd, pRa, pMod] [32 + fRa w] w s 1 ∧ (List.range (active (getCore s 0) .int32)) = [] ∧
    vecArith (fMod v) = some .fp32 ∧ Ready 0 [pRd, pRa, pRb, pMod] [32 + fRa v, fRb v] v (one runs) 1 := by
  unfold Ready; decide +kernel

/-- VectorMoves: the last 256 bytes of the scratchpad, and the last lane. -/
theorem witness_VectorMoves : let s := one runs; let w := word [(31, 51), (2, 46), (1, 32), (spmSize - 256, 0)]; let a := (sreg (getCore s 0) (fRa w) + fImmS w).toNat;
    let b := word [(31, 51), (2, 46), (2, 32)]; let e := word [(31, 51), (2, 46), (2, 32), (255, 0)];
    vecType (fMod w) = some .e4m3 ∧ Ready 0 [pRd, pRa, pMod, pImm] [fRa w] w s ∧ a % 64 = 0 ∧ a + 256 ≤ spmSize ∧ damageIn s (spmBase 0 + a) 256 = [] ∧
    vecType (fMod b) = some .e5m2 ∧ Ready 0 [pRd, pRa, pMod] [fRa b] b s ∧
    vecType (fMod e) = some .e5m2 ∧ fImm e < laneCount .e5m2 ∧ Ready 0 [pRd, pRa, pMod, pImm] [32 + fRa e] e s 31 ∧
    Ready 0 [pRa] [fRa (word [(31, 46)])] (word [(31, 46)]) s := by
  unfold Ready; decide +kernel

/-- SetIssue: JOIN with 64-bit keys and the key output, one operation already in the unit. -/
theorem witness_SetIssue : let g := captureGen (gen 0 0 3 4 State.reset) 0 0; let o : SetOp := ⟨0, 0, 0, 0, 5, g, g, g, g, false, false, 0x200⟩;
    let s := gen 3 3072 3 4 (gen 2 2048 3 4 (gen 1 1024 3 4 (gen 0 0 3 4 (one { runs with setq := [o] })))); let k := getCore s 0;
    let w := word [(1, 51), (2, 46), (3, 41), (4, 36), (4, 32), (0 + 1 * 16 + 2 * 256 + 3 * 4096 + 3 * 65536, 0)];
    wf w 16 1 = 1 ∧ Ready 0 [pRd, pRa, pRb, pRc, pMod, (0, 18)] [fRa w, fRb w, fRc w] w s (fRd w) ∧ fMod w = 4 ∧ k.setq.length < 2 ∧ (fImm w).testBit 17 = true ∧ (fImm w).testBit 16 = true ∧
    genSuits (captureGen s 0 (wf w 0 4)) false 3 = true ∧ genSuits (captureGen s 0 (wf w 4 4)) false 3 = true ∧ genSuits (captureGen s 0 (wf w 8 4)) true 3 = true ∧
    genSuits (captureGen s 0 (wf w 12 4)) true 3 = true := by
  unfold Ready; decide +kernel

/-- SetRunResult and SetMultisets: A is 1, 1, 2 and B is 1, 3; the union has four records and room for three. -/
theorem witness_SetRunResult : let a := captureGen (gen 0 0 2 3 State.reset) 0 0; let b := captureGen (gen 0 64 2 2 State.reset) 0 0; let p := captureGen (gen 0 128 3 4 State.reset) 0 0;
    let o : SetOp := ⟨2, 3, 2, 3, 1, a, b, p, captureGen (gen 0 256 2 4 State.reset) 0 0, true, false, 0x200⟩;
    let s : State := { one { runs with setq := [o] } with mem := [(0, 1), (4, 1), (8, 2), (64, 1), (68, 3)] };
    (getCore s 0).mode = .run ∧ (getCore s 0).setq = [o] ∧ gSize o.ga = 4 ∧ gSize o.gb = 4 ∧ gSize o.gp = 8 ∧ gMode o.gp = 0 ∧ gSize o.gk = 4 ∧ gMode o.gk = 0 ∧
    damageIn s 0 65536 = [] ∧ genElems 0 a 3 s = [1, 1, 2] ∧ genElems 0 b 2 s = [1, 3] ∧ (genElems 0 a 3 s).Pairwise (· ≤ ·) ∧ (genElems 0 b 2 s).Pairwise (· ≤ ·) ∧
    (setRun 2 6 0 0 [1, 1, 2] [1, 3]).length = 4 ∧ (getCore State.reset 0).setq = [] ∧ (let u := { s with hedges := [(0, { state := .running, width := 8, height := 4 })] }; hedgeOfCore u 0 = some 0 ∧ (getHedge u 0).state = .running) ∧
    (∀ i, i < 24 → ∀ j, j < 24 → genByteAddr 0 o.gp i = genByteAddr 0 o.gp j → i = j) ∧ (∀ i, i < 12 → ∀ j, j < 12 → genByteAddr 0 o.gk i = genByteAddr 0 o.gk j → i = j) ∧
    (∀ p, p < 24 → ∀ q, q < 12 → genByteAddr 0 o.gp p ≠ genByteAddr 0 o.gk q) := by decide +kernel

theorem witness_SetRunResult_clean : genClean 0 [0, 2, 0, 0, 3, 1, 1, 4, 0, 0, 0] 0 3 (one runs) := genClean_of _ _ _ _ _ rfl
theorem witness_LoadsAndStores_whole : wholeWords (one runs) (spmSize - 4) 4 := wholeWords_of _ _ _ rfl

theorem witness_SetMultisets : [1, 1, 2].Pairwise (· ≤ ·) ∧ [1, 3].Pairwise (· ≤ ·) ∧ [1, 1, 2].length + [1, 3].length < 6 := by decide +kernel

/-- Gathers: a list of one index that skips its row, and one of a row at the end of the scratchpad. -/
theorem witness_Gathers : let s0 := gen 15 0 2 2 (one { runs with sregs := [(1, spmSize - 8), (2, 2)] }); let g := captureGen s0 0 15; let arm : GatherArm := ⟨0, 8, 4, spmSize / 8, g, 0⟩;
    let s : State := { s0 with cores := [(0, { getCore s0 0 with arm := some arm })], mem := [(0, 255), (1, 255), (2, 255), (3, 255), (4, 255), (5, 255), (6, 7)] };
    let a := word [(4, 51), (1, 46), (2, 41), (3, 36), (15, 0)]; let w := word [(1, 46), (2, 41)];
    genSuits (captureGen s 0 (wf a 0 4)) false 2 = true ∧ Ready 0 [pRd, pRa, pRb, pRc, (0, 4)] [fRd a, fRa a, fRb a, fRc a] a s ∧
    (getCore s 0).arm = some arm ∧ (sreg (getCore s 0) (fRb w)).toNat = 2 ∧ (sreg (getCore s 0) (fRa w)).toNat = spmSize - 8 ∧ gSize arm.gen = 4 ∧
    Ready 0 [pRa, pRb] [fRa w, fRb w] w s ∧ spmSize - 8 + 2 * arm.bytes ≤ spmSize ∧ (∀ l ∈ listLeft arm, 2 ≤ l) ∧ damageIn s 0 65536 = [] ∧
    genElems 0 g 2 s = [0xFFFFFFFF, spmSize / 8 - 1] ∧ arm.base + (spmSize / 8 - 1) * arm.stride + arm.bytes ≤ spmSize ∧ Ready 0 [] [] (word []) s := by
  unfold Ready; decide +kernel

/-- Streams and UnitsHold: outbound channel 7 bound to the north output, inbound channel 7 with bytes that wait. -/
theorem witness_Streams : let rt := rtrPage (routingSite (one runs) 0);
    let s : State := { sets [(rt, Rtr.chanValid, 0, 1), (rt, Rtr.chanInPort, 0, 4), (rt, Rtr.chanInCh, 0, 7), (rt, Rtr.chanValid, 39, 1)] (gen 2 0 2 4 (one { runs with sregs := [(1, 4)] }))
      with rest := [(7, [1, 2, 3])] };
    let l := word [(4, 51), (1, 46), (2, 41), (3, 36), (15, 0)]; let w := word [(1, 46), (2 + 7 * 2 ^ 8, 0)]; let v := word [(0xFFFF, 0)];
    Ready 0 [pRd, pRa, pRb, pRc, (0, 4)] [fRd l, fRa l, fRb l, fRc l] l s ∧ genOk (captureGen s 0 (wf w 0 4)) = true ∧ gMode (captureGen s 0 (wf w 0 4)) = 0 ∧
    (getCore s 0).strs.length < 8 ∧ Ready 0 [pRa, (0, 4), (8, 3)] [fRa w] w s ∧ outBound s 0 (wf w 8 3) = true ∧ inBound s 0 (wf w 8 3) = true ∧ s.damage = [] ∧
    (getCore s 0).strs.any (fun o => o.recv && o.chan == wf w 8 3) = false ∧ Ready 0 [(0, 16)] [] v s ∧
    (getCore s 0).strs.any (fun o => (wf v 0 16).testBit (if o.recv then 8 + o.chan else o.chan)) = false := by
  unfold Ready; decide +kernel

theorem witness_UnitsHold : let o : StrOp := ⟨true, 7, [], 4, 0⟩; let s := sets [(spmPage 0, Spm.pondState, 15, pondOpen)] (one { runs with strs := [o], puts := [9], sregs := [(1, 1)] });
    let w := word [(0x8000, 0)]; let p := word [(1, 46), (15, 0)]; let k := getCore s 0;
    Ready 0 [(0, 16)] [] w s ∧ k.strs.any (fun o => (wf w 0 16).testBit (if o.recv then 8 + o.chan else o.chan)) = true ∧ Ready 0 [pRd] [] (word [(1, 51)]) s 1 ∧ k.puts ≠ [] ∧
    Ready 0 [pRa, (0, 4)] [fRa p] p s ∧ pondState s 0 (wf p 0 4) = pondOpen ∧ pondLanded s 0 (wf p 0 4) < (sreg k (fRa p)).toNat ∧ Ready 0 [] [] (word []) s ∧
    writesDone k = false ∧ k.strs ≠ [] := by
  unfold Ready; decide +kernel

/-! ## Small states: Ponds, arrays, the fabric, Hedges and queues -/

/-- The state with one Hedge number. -/
def hedge (h : Nat) (k : Hedge) (s : State) : State := { s with hedges := [(h, k)] }

/-- The state with one queue. -/
def que (q : Nat) (k : Queue) (s : State) : State := { s with queues := [(q, k)] }

/-- A descriptor of 64 bytes: offset, bytes, value. -/
def desc (l : List (Nat × Nat × Nat)) : List Byte := leBytes 64 (l.foldl (fun n e => n + e.2.2 % 256 ^ e.2.1 * 256 ^ e.1) 0)

/-- A descriptor that has started, with ring index 0. -/
def flight (d : List Byte) : Flight := { index := 0, desc := d, started := true, start := 0, met := false }

/-- A queue with one started descriptor. -/
def busyWith (d : List Byte) : Queue := { flights := [flight d] }

/-- A Hedge of one plot, the last, or all of them, with connection 0 as its owner. -/
def lastPlot (st : HState) : Hedge := { state := st, owner := some 0, plot := 31, width := 1, height := 1 }
def allPlots (st : HState) : Hedge := { state := st, owner := some 0, plot := 0, width := 8, height := 4 }

/-- An INT8 operation of one by one by one on sub-array 0. -/
def op1 : ArrOp :=
  { shape := 0, ksplit := 0, sub := 0, slot := 0, pt := false, acc := false, drain := false, biasEn := false, ofmt := 0, sat := false, stat := 0, statRow := 0, k := 1, m := 1, n := 1,
    afmt := 6, bfmt := 6, biasFmt := 0, adesc := [0, 0, 0, 1, 0, 0], bdesc := [64, 0, 0, 1, 0, 0], biasDesc := [], odesc := [128, 0, 0, 4, 0, 0], agen := [], bgen := [], rows := [] }

/-- Memory without damage, in a state whose fields hold no FAILED channel, is sound. -/
theorem sound_of (s : State) (hd : s.damage = []) (hf : s.fld.all (fun e => decide (e.2 ≠ 4)) = true) : Sound s := by
  refine ⟨hd, fun ch h => ?_⟩
  have key : ∀ (t : Tbl Nat) (k v : Nat), tblFind k t = some v → (k, v) ∈ t := by
    intro t k v hv
    induction t with
    | nil => cases hv
    | cons e t ih =>
      obtain ⟨a, w⟩ := e
      simp only [tblFind] at hv
      split at hv
      · rename_i ha
        cases hv
        simp [ha]
      · exact List.mem_cons_of_mem _ (ih hv)
  unfold mcState getF tblGet at h
  split at h
  · rename_i v hv
    have := List.all_eq_true.mp hf _ (key _ _ _ hv)
    simp only [ne_eq, decide_not, Bool.not_eq_true', decide_eq_false_iff_not] at this
    exact this h
  · exact absurd h (by decide)

/-! ## Ponds and barriers -/

/-- PondInstructions: the last Pond, a window at the end of the scratchpad, a PUT of the largest payload from there to the last core. -/
theorem witness_PondInstructions : let s := one { runs with sregs := [(1, spmSize - 256), (2, 256), (3, 0xFF1F), (4, BitVec.ofNat 64 (4095 + 15 * 2 ^ 12 + 255 * 2 ^ 16 + (2 ^ 22 - 256) * 2 ^ 24))] };
    let u := sets [(spmPage 0, Spm.pondState, 15, pondOpen), (spmPage 0, Spm.landed, 15, 256)] s; let o := word [(1, 46), (2, 41), (3, 36), (15, 0)]; let p := word [(4, 46), (1, 41), (256, 0)];
    Ready 0 [pRa, pRb, pRc, (0, 4)] [fRa o, fRb o, fRc o] o s ∧ pondState s 0 15 ≠ pondOpen ∧ pondState s 0 15 ≠ pondClosing ∧ windowOk (spmSize - 256) 256 = true ∧
    Ready 0 [pRd, (0, 4)] [] (word [(1, 51), (15, 0)]) u 1 ∧ (getCore u 0).puts.length < 64 ∧ pondState u 0 15 = pondOpen ∧
    Ready 0 [pRa, pRb, (0, 9)] [fRa p, fRb p] p s ∧ putCause (sreg (getCore s 0) (fRa p)).toNat ((sreg (getCore s 0) (fRb p)).toNat % 2 ^ 22) (wf p 0 9) = none ∧
    damageIn s (spmBase 0 + (spmSize - 256)) 256 = [] ∧ Ready 0 [pRa, (0, 4)] [2] (word [(2, 46), (15, 0)]) u ∧ (sreg (getCore u 0) 2).toNat ≤ pondLanded u 0 15 ∧
    Ready 0 [pRd] [] (word [(31, 51)]) s 31 ∧ (getCore s 0).puts = [] := by
  unfold Ready; decide +kernel

/-- PondPackets: a packet that fills the window of core 4095, one past it, and the answers to a PUT. -/
theorem witness_PondPackets : let h := lastPlot .running; let pkt : Packet := ⟨7, 4095, 3, 4095, 15, 9, 60, [1, 2, 3, 4], coreRow 4095, coreCol 4095, .moving none, 9, 4, 0, none, false⟩;
    let mk := fun (l : Nat) (p : Packet) => { sets [(spmPage 4095, Spm.pondState, 15, pondOpen), (spmPage 4095, Spm.srcHedge, 15, 3), (spmPage 4095, Spm.gen, 15, 9), (spmPage 4095, Spm.len64, 15, l)]
      (hedge 3 h State.reset) with packets := [p], cores := [(4095, { runs with puts := [7] })] };
    (findPacket (mk 1 pkt) 7 = some pkt ∧ pondCheck (mk 1 pkt) pkt false = none ∧ pondCheck (mk 1 pkt) pkt true = some 1 ∧ pondCheck (mk 0 pkt) pkt false = some 7) ∧
    atCheck pkt = true ∧ asleep (mk 1 pkt) 4095 = false ∧ asleep (sets [(clkPage (clusterOfCore State.reset 4095), Clk.state, 0, 3)] (mk 1 pkt)) 4095 = true ∧ (mk 1 pkt).damage = [] ∧
    (∀ c ∈ [0, 2], let a := { pkt with answer := some c }; findPacket (mk 1 a) 7 = some a ∧ a.row = coreRow a.src ∧ a.col = coreCol a.src ∧ 7 ∈ (getCore (mk 1 a) 4095).puts ∧
      8 ∉ (getCore (mk 1 a) 4095).puts) := by decide +kernel

theorem witness_PondEnds : let s := { sets [(spmPage 0, Spm.pondState, 15, pondClosing)] (hedge 0 (allPlots .running) (one { runs with puts := [7], cyc := 2 ^ 18, ponds := [(15, { closeRd := some 31 })] }))
      with packets := [⟨7, 0, 0, 1, 0, 0, 0, [], 0, 0, .lost, 0, 4, 0, none, false⟩] };
    pondState s 0 15 = pondClosing ∧ (tblGet {} (getCore s 0).ponds 15).closeRd = some 31 ∧ (findPacket s 7).isSome = true ∧ 7 ∈ (getCore s 0).puts ∧ 0 + 2 ^ 18 ≤ (getCore s 0).cyc ∧
    hedgeOfCore s 0 = some 0 ∧ (getHedge s 0).state = .running ∧
    (let d := desc [(0, 1, 4), (0x10, 8, spmBase 4095), (0x18, 8, 64)]; let u := { que 95 (busyWith d) (sets [(quePage 95, Que.hedge, 0, 31)] (hedge 31 (lastPlot .running) State.reset)) with engCyc := 2 ^ 18 };
      engineSends u 95 = some (0, [4095]) ∧ 0 + 2 ^ 18 ≤ u.engCyc ∧ (getHedge u (queHedge u 95)).state = .running) := by decide +kernel

/-- Synchronisation: barrier 3, of which every core of the last plot but its last has one issue. -/
theorem witness_Synchronisation : let bar : Core := { runs with bars := [(3, 1)], barWait := some 3 }; let cs := hedgeCores (lastPlot .running);
    let s := fun (l : List Nat) => { hedge 5 (lastPlot .running) State.reset with cores := l.map (fun c => (c, bar)) }; let w := word [(3, 0)];
    Ready 0 [] [] (word []) (one runs) ∧ writesDone (getCore (one runs) 0) = true ∧ Ready 0 [(0, 2)] [] w (one runs) ∧
    hedgeOfCore (s cs) 4095 = some 5 ∧ (getCore (s cs) 4095).barWait = some 3 ∧ (∀ x ∈ cs, (siteOf (s cs) x).isSome = true → 1 ≤ tblGet 0 (getCore (s cs) x).bars 3) ∧
    (let v := s [4095]; ∃ x ∈ hedgeCores (lastPlot .running), (siteOf v x).isSome = true ∧ tblGet 0 (getCore v x).bars 3 < 1) := by
  unfold Ready; decide +kernel

/-! ## Arrays -/

/-- ArrayMultiplyIssue: INT8, descriptors 0 and 1, one row and column; no row; and a row from the gather list. -/
theorem witness_ArrayMultiplyIssue : let p := arrPage 0;
    let s0 := sets [(p, Arr.descFmt, 0, 6), (p, Arr.descFmt, 1, 6), (p, Arr.descFmt, 2, 6), (p, Arr.descSrc, 2, 1), (p, Arr.descBase, 1, 64)] (gen 0 0 2 1 (one { runs with sregs := [(1, 1), (2, 0x10001), (3, 0x10000)] }));
    let g : GatherArm := ⟨0, 4, 1, 2, captureGen s0 0 0, 0⟩; let s := { s0 with cores := [(0, { getCore s0 0 with arm := some g })] };
    let w := fun (d a : Nat) => word [(d, 40), (1, 36), (1, 13), (a, 8)];
    (∀ x ∈ [(0, 2), (0, 3), (2, 2)], let o := captureMma s 0 (getCore s 0) (w x.1 x.2); Ready 0 [(0, 56)] [aKreg (w x.1 x.2), aDimReg (w x.1 x.2)] (w x.1 x.2) s ∧
      mmaCause (getCore s 0) o (wf (w x.1 x.2) 0 8 == 0) = none ∧ queueDepth (getCore s 0) < 8 ∧ (o.m, o.n, dSrc o.adesc) = (if x.2 = 3 then 0 else 1, 1, x.1 / 2)) ∧
    gSize g.gen = 4 ∧ 1 * fmtBytes .int8 ≤ g.bytes ∧ (∀ l ∈ listLeft g, 1 ≤ l) ∧ genElems 0 g.gen 1 s = [0] ∧ s.damage = [] := by
  unfold Ready; decide +kernel

/-- ArrayTileInstructions: the last slot of the last sub-array, free and held. -/
theorem witness_ArrayTileInstructions : let dim := (1, BitVec.ofNat 64 (32 + 8 * 2 ^ 16)); let s := one { runs with sregs := [dim] };
    let d := word [(3, 49), (3, 47), (5, 23), (1, 8)]; let c := word [(3, 49), (3, 47), (1, 45), (1, 8)]; let a := word [(0x1FFFF, 0)]; let l := word [(15, 40), (1, 13), (1, 8)];
    Ready 0 [(0, 56)] [aDimReg d] d s ∧ drainCause s 0 (getCore s 0) d = none ∧ [15].any (slotBusy (getCore s 0)) = false ∧ (getCore s 0).slotBad = [] ∧
    Ready 0 [(0, 56)] [aDimReg c] c s ∧ clrCause (getCore s 0) c = none ∧
    Ready 0 [(0, 56)] [] a s ∧ unusedZero a [(0, 17)] = true ∧ (List.range 16).any (slotBusy (getCore s 0)) = false ∧
    (getCore s 0).ops = [] ∧ (getCore s 0).snaps = [] ∧ Ready 0 [(0, 56)] [aKreg l, aDimReg l] l s ∧ unusedZero l [(40, 4), (13, 5), (8, 5)] = true := by
  unfold Ready; decide +kernel

theorem witness_ArrayTileInstructions_busy : let dim := (1, BitVec.ofNat 64 (32 + 8 * 2 ^ 16)); let b := one { runs with sregs := [dim], ops := [{ op1 with sub := 3, slot := 3 }] };
    let e := word [(3, 49), (3, 47), (8, 23), (1, 8)]; let c := word [(3, 49), (3, 47), (1, 45), (1, 8)];
    Ready 0 [(0, 56)] [aDimReg e] e b ∧ drainCause b 0 (getCore b 0) e = none ∧ Ready 0 [(0, 56)] [aDimReg c] c b ∧ clrCause (getCore b 0) c = none ∧
    [15].any (slotBusy (getCore b 0)) = true := by
  unfold Ready; decide +kernel

theorem witness_ArrayStreaming : let k : Core := { runs with ops := [{ op1 with stage := .streaming }, op1] }; let s := one k;
    (k.mode = .run ∧ k.ops[1]? = some op1 ∧ op1.stage = .queued ∧ op1.stalled = false ∧ (k.ops.take 1).any (fun p => meets (opSlots p) (opSlots op1)) = true ∧ membersFree k 1 op1 = true ∧ slotsFree k 1 op1 = false) ∧
    (let o := { op1 with slot := 1 }; membersFree { k with ops := [{ op1 with stage := .streaming }, o] } 1 o = true ∧ slotsFree { k with ops := [{ op1 with stage := .streaming }, o] } 1 o = true ∧
      ∀ r ∈ readRanges o, damageIn s (spmBase 0 + r.1) r.2 = []) := by decide +kernel

/-- ArrayFolding: the last slot of the widest shape. -/
theorem witness_ArrayFolding : let o := { op1 with shape := 5, slot := 3, acc := true, m := 32, n := 32, k := 0, stage := .streamed }; let k : Core := { runs with ops := [o] };
    k.ops[0]? = some o ∧ (k.ops.take 0).all (fun p => !meets (opSlots p) (opSlots o)) = true ∧ (∀ j ∈ opSlots o, tblGet 0 k.slotBad j = 0) ∧ shapeLegal o.shape o.ksplit = true ∧
    subLegal o.shape o.ksplit o.sub = true ∧ o.m ≤ (shapeDim o.shape).1 ∧ o.n ≤ (shapeDim o.shape).2 ∧ o.slot < 4 ∧
    (let p := { o with slot := 2, pt := true, stage := .streaming }; (p.stage = .streaming ∨ p.stage = .streamed) ∧ p.slot < 4 ∧ p.slot % 2 = 0 ∧ opSlots p ≠ opSlots { p with pt := false }) := by decide +kernel

/-- ArrayChecksums: a row whose sum agrees with X, and one whose sum differs. -/
theorem witness_ArrayChecksums : let o := { op1 with stage := .folded, drain := true, ofmt := 8, xs := [(0, 5)] };
    let k := fun (v : Int) => { runs with ops := [o], slots := [(0, { tag := .int, cells := [(0, v)] })] };
    (∀ v, (k v).ops[0]? = some o ∧ (k v).slotBad = []) ∧ o.stage = .folded ∧ .fail ∉ (checkRows o).map (fun r => checkRow (k 5) o r) ∧ .fail ∈ (checkRows o).map (fun r => checkRow (k 6) o r) :=
  ⟨fun _ => ⟨rfl, rfl⟩, rfl, by decide +kernel, by decide +kernel⟩

theorem witness_ArrayDrainWrites : let d : Snapshot := ⟨8, false, 1, 3, 32, [spmSize - 32, 0, 0, 32, 0, 0], [0], [(0, 0, true, 5), (0, 1, true, -1)], false⟩; let s := one { runs with snaps := [d] };
    (getCore s 0).snaps = [d] ∧ fmtOf d.ofmt = some .int32 ∧ s.damage = [] ∧
    let outs := d.cells.map (fun e => (e.1, e.2.1, drainElem e.2.2.1 .int32 d.sat e.2.2.2)); let at' := fun i j => spmBase 0 + outAddr d.odesc .int32 i j;
    outs.Pairwise (fun e g => at' e.1 e.2.1 + fmtBytes .int32 ≤ at' g.1 g.2.1 ∨ at' g.1 g.2.1 + fmtBytes .int32 ≤ at' e.1 e.2.1) := by decide +kernel

/-! ## Faults -/

/-- ProgramFaults: a bit of an unused field, an address off by one and one past the scratchpad, a target below the program, a fifth level and an empty body, and keys out of order. -/
theorem witness_ProgramFaults : let l : LoopLevel := ⟨0x200, 0x300, 2⟩; let s := one { runs with sregs := [(1, 0x1F8)], loops := [l, l, l, l] };
    let g := captureGen (gen 0 0 2 2 State.reset) 0 0; let o : SetOp := ⟨0, 2, 0, 9, 1, g, g, [0, 3], g, false, false, 0x200⟩; let u : State := { one { runs with setq := [o] } with mem := [(0, 2), (4, 1)] };
    (let w := word [(1, 36)]; canIssue (getCore s 0) = true ∧ (getCore s 0).pc < tpmEnd ∧ (∀ r ∈ aluReads w, r = 0 ∨ r ∉ heldRegs (getCore s 0)) ∧ tblGet 0 (getCore s 0).tpmBad ((getCore s 0).pc / 8) = 0 ∧ unusedZero w (aluUsed w) = false) ∧
    (∀ a ∈ [1, spmSize], let w := word [(1, 51), (a, 0)]; let x := (sreg (getCore s 0) (fRa w) + fImmS w).toNat; Ready 0 [pRd, pRa, pImm] [fRa w] w s ∧ (x % 8 ≠ 0 ∧ x % 4 ≠ 0 ∨ x % 8 = 0 ∧ spmSize < x + 4)) ∧
    (let w := word [(1, 46)]; Ready 0 [pRa] [fRa w] w s ∧ goodTarget (sreg (getCore s 0) (fRa w)).toNat = false) ∧
    (let w := word [(1, 46)]; Ready 0 [pRa, pImm] [fRa w] w s ∧ 4 ≤ (getCore s 0).loops.length ∧ fImm w = 0) ∧
    (getCore u 0).mode = .run ∧ (getCore u 0).setq = [o] ∧ o.pc < tpmEnd ∧ gSize o.ga = 4 ∧ u.damage = [] ∧ ¬ (genElems 0 o.ga 2 u).Pairwise (· ≤ ·) := by
  unfold Ready; decide +kernel

theorem witness_ProgramFaults_loop : let w := word [(1, 46), (4097, 0)]; Ready 0 [pRa, pImm] [fRa w] w (one runs) ∧ 4096 < fImm w := by
  unfold Ready; decide +kernel

theorem witness_IllegalArrayOperations : let s := one runs; let w := word [(6, 53)];
    Ready 0 [(0, 56)] [aKreg w, aDimReg w] w s ∧ mmaCause (getCore s 0) (captureMma s 0 (getCore s 0) w) (wf w 0 8 == 0) = some 2 := by
  unfold Ready; decide +kernel

/-! ## Fabric -/

theorem linkOpen_of {s : State} {a b : Nat} (h : (linkPath s a b).any (fun path => (pathLinks a path).all (fun e => !linkHeld s e && (getSkid s e.2.1 e.2.2).occ != 6)) = true) : linkOpen s a b := by
  unfold linkOpen
  cases hp : linkPath s a b with
  | none => rw [hp] at h; cases h
  | some p => exact ⟨p, rfl, by simpa [hp] using h⟩

theorem witness_PacketHops : let pkt := fun (row col : Nat) => (⟨7, 0, 0, 4095, 0, 0, 0, [], row, col, .moving none, 0, 4, 0, none, false⟩ : Packet); let s := fun row col => { State.reset with packets := [pkt row col] };
    findPacket (s 0 0) 7 = some (pkt 0 0) ∧ (pkt 0 0).col ≠ coreCol 4095 ∧ legBroken (s 0 0) 0 0 (coreCol 4095) = false ∧
    findPacket (s 62 63) 7 = some (pkt 62 63) ∧ (pkt 62 63).col = coreCol 4095 ∧ (pkt 62 63).row ≠ coreRow 4095 ∧ arrived (pkt 62 63) = false ∧ arrived (pkt 63 63) = true ∧
    (let q := { nextHop (s 0 0) (pkt 0 0) none with hops := 1, port := 3 }; let u := s 0 0; hasRoom u q = true ∧
      hasRoom { u with packets := List.replicate 6 { q with ident := 9, port := 3 } } q = false ∧
      (let v := sets [(clkPage (clusterOfSite (posRouter u 0 1)), Clk.state, 0, 2)] u; ∃ path ∈ linkPath v (posRouter v 0 0) (posRouter v 0 1), (pathLinks (posRouter v 0 0) path).any (linkHeld v) = true)) := by
  decide +kernel

theorem witness_PacketHops_open : let s := sets [(clkPage 0, Clk.state, 0, 1), (clkPage 1, Clk.state, 0, 1)] State.reset; linkOpen s (posRouter s 0 0) (posRouter s 0 1) := linkOpen_of (by decide +kernel)

/-- StaticFlits: a flit from the core to the east, one that a RECV takes whole, a SEND's last bytes, and a frozen Hedge. -/
theorem witness_StaticFlits : let rt := rtrPage (routingSite State.reset 0); let g := captureGen (gen 0 0 0 64 State.reset) 0 0;
    let s := { sets [(rt, Rtr.chanValid, 16, 1), (rt, Rtr.chanInPort, 16, 4), (rt, Rtr.chanValid, 32, 1)] (one runs) with flits := [(flitKey 0 0 0, [[5]]), (flitKey 0 4 0, [[9]])] };
    let recv : StrOp := ⟨true, 0, g, 1, 0⟩; let send : StrOp := ⟨false, 0, g, 64, 63⟩;
    coreFrozen s 0 = false ∧ chanValid s 0 2 0 = true ∧ flitsAt s 0 (chanInPort s 0 2 0) (chanInCh s 0 2 0) = [[9]] ∧ (linkOf 0 2).isSome = true ∧
    (∀ l ∈ linkOf 0 2, (flitsAt s l.1 l.2 0).length < 4) ∧ chanValid s 0 4 0 = true ∧ flitsAt s 0 (chanInPort s 0 4 0) (chanInCh s 0 4 0) = [[5]] ∧
    recv.recv = true ∧ tblGet [] s.rest (8 * 0 + 0) = [] ∧ 0 < min [5].length (recv.total - recv.moved) ∧
    send.recv = false ∧ (flitsAt s 0 4 0).length < 4 ∧ 0 < min 64 (send.total - send.moved) ∧ s.damage = [] ∧
    coreFrozen (hedge 0 (allPlots .frozen) (one runs)) 0 = true ∧ chanValid s 0 2 1 = false ∧ (getCore s 0).strs.any (fun x => x.recv && x.chan == 0) = false ∧
    (let u := { s with cores := [(0, { runs with strs := [send, recv] })] }; (getCore u 0).strs.findIdx? (fun y => y.recv && y.chan == 0) = some 1 ∧ (getCore u 0).strs[1]? = some recv ∧
      (getCore u 0).strs.findIdx? (fun y => !y.recv && y.chan == 0) = some 0 ∧ (getCore u 0).strs[0]? = some send ∧ hedgeOfCore (hedge 0 (allPlots .running) u) 0 = some 0) := by decide +kernel

theorem witness_StaticFlits_open : ∀ l ∈ linkOf 0 2, let s := sets [(clkPage 0, Clk.state, 0, 1), (clkPage 1, Clk.state, 0, 1)] State.reset; linkOpen s (routingSite s 0) (routingSite s l.1) := by
  intro l h
  exact linkOpen_of (by revert l; decide +kernel)

theorem witness_TablesAndPatrol : let s := sets [(spmPage 0, Spm.patrolPos, 0, 2047), (clkPage (clusterOfCore State.reset 0), Clk.state, 0, 1)] State.reset;
    clkState s (clusterOfCore s 0) = 1 ∧ damageIn s (spmBase 0 + 2048 * 2047) 2048 = [] ∧ getF s (spmPage 0) Spm.patrolPos < 2048 := by decide +kernel

/-! ## Hedges -/

/-- HedgeBinding: the whole grid, and a rectangle one column too wide. -/
theorem witness_HedgeBinding : let d := fun (p : Nat) => desc [(0, 1, 1), (0x10, 1, p), (0x11, 1, 8), (0x12, 1, 4)]; let s := fun p => que 0 (busyWith (d p)) State.reset;
    startedOp (s 0) 0 1 = some (flight (d 0)) ∧ bindCause (s 0) (dNat (d 0) 0x10 1) (dNat (d 0) 0x11 1) (dNat (d 0) 0x12 1) = 0 ∧ (getHedge (s 0) 0).state = .unbound ∧
    startedOp (s 1) 0 1 = some (flight (d 1)) ∧ bindCause (s 1) (dNat (d 1) 0x10 1) (dNat (d 1) 0x11 1) (dNat (d 1) 0x12 1) = 1 := by decide +kernel

/-- StepStarts: a step with and without a restore on the last plot, awake and in retention; the first start of an attempt whose forecast reached the one live cluster 1 µs ago, and
one edge too early; a core that follows; a bad entry. -/
theorem witness_StepStarts : let d := fun (fl : Nat) => desc [(0, 1, 3), (0x10, 8, 2 ^ 64 - 1), (0x18, 1, 63), (0x19, 1, fl), (0x1A, 1, 7)]; let s := fun (fl clk : Nat) => sets [(clkPage 286, Clk.state, 0, clk)] (que 5 (busyWith (d fl)) (hedge 5 (lastPlot .ready) State.reset));
    let r : StepRun := ⟨63, 9, false, 7, 1, 0, [], 0, true, [286], 4⟩;
    let u := fun (x : StepRun) (now a : Nat) => { sets [(clkPage 286, Clk.state, 0, 1)] (hedge 5 { lastPlot (if x.armed then .ready else .running) with run := some x } State.reset) with now := now, cores := [(4095, { mode := .idle, tpm := [(63, BitVec.ofNat 64 a)] })] };
    (∀ fl ∈ [0, 2], ∀ clk ∈ [1, 3], let v := s fl clk; let k := getHedge v 5; startedOp v 5 3 = some (flight (d fl)) ∧ inGrid k ∧ k.run = none ∧ k.state = .ready ∧ (failedIn v k).isEmpty = true ∧
      tblFind 5 v.shifts = none ∧ k.reload = [] ∧ (dNat (d fl) 0x19 1).testBit 1 = (fl == 2) ∧ hedgeAwake v k = (clk == 1) ∧ (restoreRegions 5 k true v).1 = none) ∧
    (∀ a ∈ [0x1FFF8, 0x1F8], let v := u r 104 a; hedgeOfCore v 4095 = some 5 ∧ (getHedge v 5).run = some r ∧ (getCore v 4095).mode = .idle ∧ (siteOf v 4095).isSome = true ∧ v.jobs = [] ∧
      mayStart v 5 (getHedge v 5) r = true ∧ goodTarget (bitsOf (tblGet 0 (getCore v 4095).tpm r.entry).toNat 0 17) = (a == 0x1FFF8)) ∧
    mayStart (u r 103 0) 5 (getHedge (u r 103 0) 5) r = false ∧ mayStart (u { r with told := [] } 104 0) 5 (getHedge (u r 104 0) 5) { r with told := [] } = false ∧
    ((getHedge (u { r with armed := false } 0 0) 5).state == .running) = true := by
  unfold inGrid; decide +kernel

/-- StepEnds: every core of the last plot DONE, one in FAULT, and the last edge of the watchdog. -/
theorem witness_StepEnds : let d := desc [(0, 1, 3)]; let r : StepRun := ⟨0, 0, false, 0, 1, 0, [], 0, false, [], 0⟩; let h := { lastPlot .running with run := some r };
    let s := fun (m : CoreMode) => { que 5 (busyWith d) (hedge 5 h State.reset) with cores := (hedgeCores h).map (fun c => (c, { mode := m })), now := 400000 }; let cs := stepCores (s .done) h;
    startedOp (s .done) 5 3 = some (flight d) ∧ (getHedge (s .done) 5).run = some r ∧ (∀ c ∈ cs, (getCore (s .done) c).mode = .done) ∧ channelBytesLeft (s .done) cs = none ∧ (s .done).jobs = [] ∧ (s .done).ucs = [] ∧ (channelBytesLeft { s .done with rest := [(8 * 4095, [1])] } cs).isSome = true ∧
    h.manifest.filter (fun g => g.snapshot) = [] ∧ 4095 ∈ stepCores (s .fault) h ∧ (getCore (s .fault) 4095).mode = .fault ∧ r.start + 400000 ≤ (s .run).now := by decide +kernel

/-- FreezeAndReplay: the last attempt REPLAY_MAX allows, one more, ONCE, a detection, and a replay whose clusters run and are in retention. -/
theorem witness_FreezeAndReplay : let r := fun (once : Bool) (n : Nat) => (⟨0, 0, once, 0, getF State.reset (hdgPage 5) Hdg.replayMax + n, 0, [], 0, false, [], 0⟩ : StepRun);
    let s := fun once n => { que 5 (busyWith (desc [(0, 1, 3)])) (hedge 5 { lastPlot .running with run := some (r once n) } State.reset) with ucs := [⟨5, 4095, false⟩] };
    let f := fun (clk : Nat) => sets [(clkPage 286, Clk.state, 0, clk)] (hedge 5 { lastPlot .frozen with run := some (r false 0) } State.reset);
    (∀ x ∈ [(false, 0), (false, 1), (true, 0)], let v := s x.1 x.2; let k := getHedge v 5; inGrid k ∧ k.state = .running ∧ k.run = some (r x.1 x.2) ∧ v.ucs.find? (fun u => u.hedge == 5) = some ⟨5, 4095, false⟩ ∧
      tblFind 5 v.shifts = none ∧ v.jobs = [] ∧ failedIn v k = [] ∧ ((r x.1 x.2).once = true ∨ getF v (hdgPage 5) Hdg.replayMax < (r x.1 x.2).attempts ↔ x ≠ (false, 0)) ∧
      startedOp v 5 3 = some (flight (desc [(0, 1, 3)])) ∧ (getQueue v 5).resetting = false) ∧
    hedgeOfCore (s true 0) 4095 = some 5 ∧ (siteOf (s true 0) 4095).isSome = true ∧ (getHedge State.reset 5).state ≠ .running ∧
    (∀ clk ∈ [1, 3], let v := f clk; let k := getHedge v 5; inGrid k ∧ k.state = .frozen ∧ k.run = some (r false 0) ∧ k.spareExh = false ∧ k.killWaits = false ∧ failedIn v k = [] ∧ tblFind 5 v.shifts = none ∧
      hedgeAwake v k = (clk == 1) ∧ k.reload = [] ∧ k.rewrite = [] ∧ k.manifest = [] ∧ (getQueue v 5).resetting = false) := by
  unfold inGrid; decide +kernel

/-- KillsAndScrubs: an owner, no owner, with and without retention, and each state a clause names. -/
theorem witness_KillsAndScrubs : let s := fun (st : HState) (op : Nat) => { que 5 (busyWith (desc [(0, 1, op)])) (hedge 5 { lastPlot st with postmortem := true } State.reset) with now := 1000000000 };
    inGrid (getHedge (s .running 7) 5) ∧ (s .running 7).jobs = [] ∧ tblFind 5 (s .running 7).shifts = none ∧ (getHedge (s .running 7) 5).postmortem = true ∧ (lastPlot .running).postmortem = false ∧
    ownsHedge (s .running 7) 0 5 = true ∧ ownsHedge (s .running 7) 1 5 = false ∧ startedOp (s .ready 7) 5 7 = some (flight (desc [(0, 1, 7)])) ∧ (getHedge (s .ready 7) 5).run = none ∧
    startedOp (s .retained 8) 5 8 = some (flight (desc [(0, 1, 8)])) ∧ (getHedge (s .retained 8) 5).killedAt + 1000000000 ≤ (s .retained 8).now ∧
    clocked (s .scrubbing 8) (getHedge (s .scrubbing 8) 5) = true ∧ failedIn (s .scrubbing 8) (getHedge (s .scrubbing 8) 5) = [] ∧ (s .scrubbing 8).doomed = [] := by
  unfold inGrid; decide +kernel

/-- EventCounters: the last counter of number 31, at its largest value, and a FENCE that waits for nothing. -/
theorem witness_EventCounters : let d := fun (op : Nat) => desc [(0, 1, op), (0x10, 2, 4095), (0x18, 8, 2 ^ 64 - 1)]; let s := fun op v => { que 31 (busyWith (d op)) (hedge 31 (lastPlot .ready) State.reset) with evt := [(4095, v)] };
    startedOp (s 5 1) 31 5 = some (flight (d 5)) ∧ ctrAdmits (s 5 1) 31 4095 = true ∧ startedOp (s 6 1) 31 6 = some (flight (d 6)) ∧ 1 < dNat (d 6) 0x18 8 ∧ dNat (d 6) 0x18 8 ≤ 2 ^ 64 - 1 ∧
    startedOp (s 4 1) 31 4 = some (flight (d 4)) ∧ (flight (d 4)).fence = [] ∧ (flight (d 6)).met = false ∧ ownsHedge (s 4 1) 0 (ctrHome 4095) = true ∧ ownsHedge (s 4 1) 1 (ctrHome 4095) = false := by decide +kernel

/-! ## Images, queues, segments and engines -/

/-- The state with the bytes in memory from an address up. -/
def put (a : Nat) (bs : List Byte) (s : State) : State := { s with mem := memPutList s.mem a bs }

/-- Segment 0 of Mere assigned to a Hedge number. -/
def seg0 (h : Nat) (s : State) : State := setSegOwner 0 (32 + h) s

/-- An image of a section without records for a binding of no plot: a header whose digest is that of nothing. -/
def emptyImage : List Byte := leBytes 64 (0x5A454C50 + 256 ^ 4 + 384 * 256 ^ 8 + 256 ^ 18) ++ sha384 [] ++ List.replicate 16 0 ++ leBytes 32 1 ++ List.replicate 224 0

/-- ImageLoading: the image of a binding of no plot passes, and one that says it is empty is refused. -/
theorem witness_ImageLoading : let d := desc [(0, 1, 2), (0x10, 8, mereBase)]; let k : Hedge := { state := .bound };
    let s := fun (img : List Byte) => put mereBase img (seg0 5 (que 5 (busyWith d) (hedge 5 k State.reset)));
    (let s := s emptyImage; startedOp s 5 2 = some (flight d) ∧ k.plot % 8 + k.width ≤ 8 ∧ mereOwned s 5 mereBase 384 = true ∧
      let r := readImage 5 mereBase s; r.1 = none ∧ r.2.1 = 384 ∧ imageCause s 5 k mereBase r.2.1 r.2.2.1 = 0 ∧ imgManifest r.2.2.1 = []) ∧
    (let s := s []; let r := readImage 5 mereBase s; r.1 = none ∧ imageCause s 5 k mereBase r.2.1 r.2.2.1 = 1) := by decide +kernel

theorem witness_ImageLoading_sound : Sound (seg0 5 State.reset) := sound_of _ (by decide +kernel) (by decide +kernel)

/-- QueueWork: the last slots of both rings, a descriptor that is legal, one that is not, and a doorbell at and past the ring's end. -/
theorem witness_QueueWork : let pg := quePage 40; let s0 := sets [(pg, Que.hedge, 0, 5), (pg, Que.en, 0, 1), (pg, Que.baseHi, 0, 256), (pg, Que.cqBaseHi, 0, 256), (pg, Que.cqBaseLo, 0, 2048),
      (pg, Que.head, 0, 2 ^ 32 - 1), (pg, Que.cqTail, 0, 2 ^ 32 - 1), (pg, Que.cqHead, 0, 2 ^ 32 - 1)] (seg0 5 (hedge 5 (lastPlot .ready) State.reset));
    let bad := put (mereBase + 960) [1, 0x20] s0; let ok := put (mereBase + 960) [4] s0; let c : Compl := ⟨7, 9, 4, 0, 0, 0, 1, 0, 0, some 640, true, false, false⟩;
    let a := fun s => getF s pg Que.baseHi * 2 ^ 32 + getF s pg Que.baseLo + 64 * (getF s pg Que.head % 2 ^ getF s pg Que.ringLog2); let f := { flight (desc [(0, 1, 4)]) with started := false };
    ownsHedge s0 0 (queHedge s0 40) = true ∧ ringDist (2 ^ 32 - 1) 15 = 16 ∧ ringDist (2 ^ 32 - 1) 16 = 17 ∧
    (∀ s ∈ [bad, ok], canFetch s 40 = true ∧ mereOwned s 5 (a s) 64 = true) ∧ descBad 40 (memList bad (a bad) 64) = some 1 ∧
    descBad 40 (memList ok (a ok) 64) = none ∧ eventDenied ok 40 (memList ok (a ok) 64) = none ∧
    canStart (que 40 { flights := [f] } s0) 40 f = true ∧
    (let s := que 40 { compl := [c] } s0; (getQueue s 40).held = false ∧ cqFull s 40 = false ∧ mereOwned s (queHedge s 40) (mereBase + 2048 + 480) 32 = true ∧ (mereBase + 2048 + 480) % 32 = 0 ∧
      s.resetReq = none) := by decide +kernel

theorem witness_QueueWork_sound : Sound (put (mereBase + 960) [1, 0x20] (sets [(quePage 40, Que.hedge, 0, 5), (quePage 40, Que.en, 0, 1), (quePage 40, Que.baseHi, 0, 256)] (seg0 5 State.reset))) :=
  sound_of _ (by decide +kernel) (by decide +kernel)

/-- OwnersAndSegments: the last queue and segment, free, assigned and scrubbing; ring sizes 4 and 16, and 3 and 17. -/
theorem witness_OwnersAndSegments : let s := sets [(quePage 131, Que.hedge, 0, 31)] (hedge 31 { owner := some 4095 } State.reset); let cfg := fun (n m : Nat) => 31 + 2 ^ 8 + n * 2 ^ 12 + m * 2 ^ 17;
    ownsHedge s 4095 (queHedge s 131) = true ∧ ownsHedge s 0 (queHedge s 131) = false ∧ s.jobs = [] ∧ (∀ x ∈ [(4, 16), (3, 4), (4, 17)], mayWriteCfg s 4095 131 (cfg x.1 x.2) = true ∧
      bitsOf (cfg x.1 x.2) 12 5 = x.1 ∧ bitsOf (cfg x.1 x.2) 17 5 = x.2) ∧ getF s (quePage 131) Que.en ≠ 1 ∧
    ownsHedge s 4095 31 = true ∧ 743 < getF s segPage Seg.count ∧ segAssigned s 743 = false ∧ segScrubbing s 743 = false ∧
    (let u := setSegOwner 743 63 s; ownsHedge u 4095 (segHedge u 743) = true ∧ segAssigned u 743 = true) ∧ segScrubbing (setSegScrubbing 743 1 s) 743 = true ∧
    (let u := { State.reset with conns := [(0, { state := .opened })] }; (getHedge u 31).owner = none ∧ (getConn u 0).state = .opened ∧ (getConn u 0).kind = 0) ∧
    (getHedge s 31).owner.isSome = true ∧ (getHedge s 31).state = .unbound ∧ (getHedge (hedge 31 (lastPlot .bound) State.reset) 31).state ≠ .unbound := by decide +kernel

/-- OwnersAndSegments: the queue of a FROZEN Hedge, before and after its first attempt, and writes of Q_CFG with and without the right. -/
theorem witness_OwnersAndSegments_frozen : let s := hedge 31 { lastPlot .frozen with owner := some 4095 } State.reset; let r : StepRun := ⟨0, 0, false, 0, 1, 0, [], 0, false, [], 0⟩;
    let t := hedge 31 { lastPlot .frozen with owner := some 4095, run := some r } State.reset; let u := sets [(quePage 131, Que.hedge, 0, 31)] s;
    ownsHedge s 4095 31 = true ∧ (getHedge s 31).state = .frozen ∧ (getHedge s 31).spareExh = false ∧ (getHedge s 31).run = none ∧ (getHedge t 31).run = some r ∧
    mayWriteCfg u 4095 131 31 = true ∧ mayWriteCfg u 4095 131 30 = false ∧ mayWriteCfg u 0 131 31 = false ∧ mayWriteCfg u 4095 31 0 = true ∧ ownsHedge u 0 (queHedge u 131) = false := by decide +kernel

/-- Transfers, in segment 0: two rows that swap apart, a gather and a scatter of two rows, one of them skipped, a fill of one pattern and a half, and a transposing conversion. -/
theorem witness_Transfers : let a := fun (n : Nat) => mereBase + n; let s := fun (d : List Byte) => put (a 512) [1, 0, 0, 0, 255, 255, 255, 255] (sets [(quePage 95, Que.hedge, 0, 5)] (seg0 5 (que 95 (busyWith d) (hedge 5 (lastPlot .ready) State.reset))));
    let copy := desc [(0, 1, 1), (0x10, 8, a 0), (0x18, 8, a 256), (0x20, 4, 4), (0x24, 4, 2), (0x28, 8, 4), (0x30, 8, 64)];
    let table := fun (op lim : Nat) => desc [(0, 1, op), (0x10, 8, a 0), (0x18, 8, a (512 + 4 * (lim - 2))), (0x20, 8, a 256), (0x28, 4, 4), (0x2C, 4, 4 - lim), (0x30, 8, 8), (0x38, 4, 2)];
    let fill := desc [(0, 1, 4), (0x10, 8, a 0), (0x18, 8, 12), (0x20, 8, 0x0102030405060708)];
    let conv := desc [(0, 1, 5), (0x10, 8, a 0), (0x18, 8, a 256), (0x20, 4, 2), (0x24, 4, 2), (0x28, 4, 8), (0x2C, 4, 4), (0x30, 1, 5), (0x31, 1, 3), (0x32, 1, 3)];
    queHedge (s copy) 95 = 5 ∧ (getHedge (s copy) 5).state ≠ .frozen ∧
    flightAt (s copy) 95 1 0 = some (flight copy) ∧ rangesFail (s copy) 5 (copyRanges copy) = none ∧
    flightAt (s (table 2 2)) 95 2 0 = some (flight (table 2 2)) ∧ rangesFail (s (table 2 2)) 5 (tableRanges (table 2 2)) = none ∧
    (List.range 2).map (fun r => memNat (s (table 2 2)) (a 512 + 4 * r) 4) = [1, 0xFFFFFFFF] ∧
    flightAt (s (table 3 3)) 95 3 0 = some (flight (table 3 3)) ∧ rangesFail (s (table 3 3)) 5 (tableRanges (table 3 3)) = none ∧ memNat (s (table 3 3)) (a 512) 4 = 1 ∧
    flightAt (s fill) 95 4 0 = some (flight fill) ∧ rangesFail (s fill) 5 [(a 0, 12)] = none ∧
    flightAt (s conv) 95 5 0 = some (flight conv) ∧ rangesFail (s conv) 5 (convertRanges conv) = none := by decide +kernel

/-- Transfers: a fill of the last scratchpad while its Hedge is FROZEN, in retention, and of another's; one that pauses before its second granule; an accumulating scatter. -/
theorem witness_Transfers_waits : let d := desc [(0, 1, 4), (0x10, 8, spmBase 4095), (0x18, 8, 130), (0x20, 8, 5)]; let f := flight d; let s := fun (st : HState) (clk : Nat) => sets [(quePage 95, Que.hedge, 0, 5), (clkPage 286, Clk.state, 0, clk)] (que 95 (busyWith d) (hedge 5 (lastPlot st) State.reset));
    let sc := desc [(0, 1, 3), (0x10, 8, mereBase), (0x18, 8, mereBase + 512), (0x20, 8, mereBase + 256), (0x28, 4, 4), (0x2C, 4, 1), (0x30, 8, 8), (0x38, 4, 3), (0x3C, 1, 1), (0x3D, 1, 5)]; let u := put (mereBase + 512) [1] (sets [(quePage 95, Que.hedge, 0, 5)] (seg0 5 (que 95 (busyWith sc) (hedge 5 (lastPlot .ready) State.reset))));
    flightAt (s .ready 1) 95 4 0 = some f ∧ spmFrozen (s .frozen 1) 5 (teRanges d) = true ∧
    (let v := s .ready 1; spmFrozen v 5 (teRanges d) = false ∧ rangesFail v 5 (teRanges d) = none ∧ anyAsleep v (rangeCores (teRanges d)) = false ∧ (granules (spmBase 4095) 130).length = 3) ∧
    (let v := s .ready 3; spmFrozen v 5 (teRanges d) = false ∧ rangesFail v 5 (teRanges d) = none ∧ anyAsleep v (rangeCores (teRanges d)) = true) ∧
    (let v := hedge 5 (lastPlot .retained) (s .ready 1); spmFrozen v 5 (teRanges d) = false ∧ (rangesFail v 5 (teRanges d)).isSome = true) ∧ f.units = 0 ∧ f.bytes = 0 ∧ f.nflags = 0 ∧
    flightAt u 95 3 0 = some (flight sc) ∧ rangesFail u 5 (tableRanges sc) = none ∧ memNat u (mereBase + 512) 4 = 1 ∧ dNat sc 0x3C 1 ≠ 0 ∧ fmtOf (dNat sc 0x3D 1) = some .fp32 := by decide +kernel

/-- The ranges of the gather, the scatter and the conversion keep apart. -/
theorem witness_Transfers_apart : (∀ x : Nat, inRows (fun r => mereBase + 256 + r * 4) 4 2 x → ¬ inRows (fun r => mereBase + [1, 0].getD r 0 * 8) 4 2 x ∧ ¬ (mereBase + 512 ≤ x ∧ x < mereBase + 520)) := by
  rintro x ⟨r, hr, h1, h2⟩
  dsimp only at h1 h2
  constructor
  · rintro ⟨u, hu, h3, h4⟩
    have : u = 0 ∨ u = 1 := by omega
    rcases this with rfl | rfl <;> simp at h3 h4 <;> omega
  · omega

/-! ## Collectives -/

/-- The state with communicator 0 of n ranks for Hedge number 5, this device rank 0, queue 96, its table at the start of segment 0 and its workspace 1 MiB further on; memory
is zero there, so that a connection to address 0 is every rank's. -/
def comm (n : Nat) (s : State) : State :=
  sets [(nePage, Ne.valid, 0, 1), (nePage, Ne.hedge, 0, 5), (nePage, Ne.size, 0, n), (nePage, Ne.workMib, 0, 2), (nePage, Ne.rankTabHi, 0, 256), (nePage, Ne.workHi, 0, 256),
    (nePage, Ne.workLo, 0, 2 ^ 14), (quePage 96, Que.hedge, 0, 5)] (seg0 5 (hedge 5 { lastPlot .ready with owner := some 1 } s))

/-- The state with an open peer connection 0 to address 0, and a message at the front of its inbox. -/
def peerTo (inbox : List Wire) (s : State) : State := { s with conns := [(0, { state := .opened, kind := 1, addrs := [0], inbox := inbox })] }

/-- A collective descriptor over FP32. -/
def collDesc (op count : Nat) : List Byte :=
  desc [(0, 1, op), (0x10, 8, mereBase + 4096), (0x18, 8, mereBase + 8192), (0x20, 8, count), (0x2A, 2, if 6 ≤ op then 1 else 0), (0x2C, 1, 5), (0x2D, 1, 5), (0x2F, 1, if op < 5 then 1 else 0)]

/-- CollectiveStarts: an all-reduce of two ranks, a send, and an all-reduce of one rank. -/
theorem witness_CollectiveStarts : let s := fun (op n : Nat) => peerTo [] (comm n (que 96 (busyWith (collDesc op 2)) State.reset));
    (∀ x ∈ [(1, 2), (5, 2), (6, 2), (1, 1)], let u := s x.1 x.2; let d := collDesc x.1 2; jobDue u 96 x.1 = some (flight d) ∧
      ((getQueue u 96).flights.takeWhile (fun y => y.index != 0)).any (fun y => jobless u 96 y && sameSeq d y.desc) = false ∧ spmFrozen u (queHedge u 96) (neReads d x.2 0) = false ∧
      anyAsleep u (rangeCores (neReads d x.2 0)) = false ∧ (dNat d 0x32 2).testBit 1 = false ∧ u.jobs = [] ∧ neCommBad u 96 d = none ∧ getF u nePage Ne.broken 0 ≠ 1 ∧
      rangesFail u (queHedge u 96) (neRanges u d 0 x.2 0) = none ∧ u.readys = [] ∧ jRop d = 0 ∧ 0 < jCount d ∧
      (∀ y ∈ planOf x.1 (resolveAlg x.1 (dNat d 0x2F 1) (jTfmt d) (jCount d) x.2) x.2 0 1, y.kind ≠ .seal → (peerConn u 0 y.peer).isSome = true) ∧ (x.2 = 2 → (peerConn u 0 1).isSome = true)) ∧
    (let u := s 1 1; commSize u 0 = 1 ∧ commRank u 0 = 0 ∧ efmtOk 5 = true ∧ tfmtOk 5 = true ∧ spmFrozen u (queHedge u 96) (neWrites (collDesc 1 2) 1 0) = false ∧ anyAsleep u (rangeCores (neWrites (collDesc 1 2) 1 0)) = false ∧
      (getQueue u 96).flights.find? (fun y => y.index == 0) = some (flight (collDesc 1 2))) := by decide +kernel

theorem witness_CollectiveStarts_sound : Sound (comm 2 (que 96 (busyWith (collDesc 1 2)) State.reset)) := sound_of _ (by decide +kernel) (by decide +kernel)

/-- A segment of communicator 0 from rank 1: kind, opcode, attempt, offset, CRC and element count of the whole. -/
def seg (kind opc attempt off crc count : Nat) : Wire :=
  { type := tColl, flags := 0, dst := 0, src := 0, body := leBytes 64 (kind + 5 * 256 + opc * 256 ^ 2 + attempt * 256 ^ 3 + 1 * 256 ^ 4 + 256 ^ 0x14 + off * 256 ^ 0x18 + crc * 256 ^ 0x20 + count * 256 ^ 0x38) ++
    List.replicate 4 0 }

/-- A ring step's transfers: a send made, a reduction and a reception to come, with rank 1. -/
def job1 : Job := { queue := 96, index := 0, comm := 0, op := 1, alg := 1, seq := 0, size := 2, rank := 0, peer := 0, chunks := 2, total := 2, told := [1], vals := [],
                    plan := [⟨.send, 0, 1, 0, 1, true, false, [], [], []⟩, ⟨.reduce, 0, 1, 1, 2, false, false, [], [], []⟩, ⟨.store, 1, 1, 0, 1, false, false, [], [], []⟩] }
def job5 : Job := { job1 with op := 5, plan := [] }

/-- The state in which that message has arrived for that job. -/
def arrived (w : Wire) (j : List Job) : State := { peerTo [w] (comm 2 (que 96 (busyWith (collDesc 1 2)) State.reset)) with jobs := j, now := 10 ^ 12 }

/-- CollectiveMessages: every kind of segment without a job and with one, good and bad digests, other parameters, and a job past its time. -/
theorem witness_CollectiveMessages : let opc := jobOpc (collDesc 1 2) job1; let crc := crc64 (List.replicate 4 0);
    (∀ kind ∈ [0, 1, 2, 3, 4, 5], let s := arrived (seg kind opc 0 0 crc 2) []; ∀ r ∈ takeSeg 0 kind s, segComm r.2 0 r.1 = some 0 ∧ segJob r.2 0 r.1 = none) ∧
    (∀ kind ∈ [0, 1, 2, 3, 4, 5], let j := if kind = 5 then job5 else job1; let s := arrived (seg kind opc 0 0 crc 2) [j]; (takeSeg 0 kind s).isSome = true ∧
      ∀ r ∈ takeSeg 0 kind s, segComm r.2 0 r.1 = some 0 ∧ segJob r.2 0 r.1 = some j) ∧
    (∀ r ∈ takeSeg 0 3 (arrived (seg 3 opc 0 0 crc 2) [job1]), (job1.plan.find? (fun x => !isRecv x && x.kind != .seal && x.peer == cSrc r.1 && x.step == cStep r.1 && x.fin)).isSome = true) ∧
    (recvFrom job5 = [1] ∧ job5.told = [1] ∧ job5.ready = [] ∧ shuffleDone { job5 with counts := [(1, 0)] } = false) ∧
    job1.last + getF (arrived (seg 0 opc 0 0 crc 2) [job1]) nePage Ne.timeoutMs * msEdges ≤ 10 ^ 12 ∧
    (∀ x ∈ [(opc, 0, crc, 2, 0), (opc, 0, crc + 1, 2, 1), (opc, 1, crc + 1, 2, 1)], let w := seg 0 x.1 x.2.1 1 x.2.2.1 x.2.2.2.1; segCheck (collDesc 1 2) w.body = x.2.2.2.2 ∧ cOpc w.body = opc ∧
      cTfmt w.body = 5 ∧ cDcount w.body = jCount (collDesc 1 2) ∧ cAttempt w.body = x.2.1) ∧
    cDcount (seg 0 opc 0 0 crc 3).body ≠ jCount (collDesc 1 2) ∧
    job1.plan.findIdx? (fun x => isRecv x && x.peer == 1 && x.step == 0 && !x.fin) = some 1 := by decide +kernel

theorem witness_CollectiveMessages_stalled : stalled job1 := ⟨by decide, by decide, 1, _, rfl, rfl, rfl, by decide⟩

/-! ## Mere, ports, connections and requests -/

/-- The state with channels 0 and 191 in the interleave, and channel 191's state. -/
def mere (st : Nat) (s : State) : State := sets [(msmPage, Msm.active, 0, 1), (msmPage, Msm.active, 5, 2 ^ 31), (mcPage 191, Mc.state, 0, st), (mcPage 0, Mc.state, 0, 1)] s

/-- MereChannels: the last granule, the patrol's last block, each stage of training, the idle times at their last edges, and the retrainings. -/
theorem witness_MereChannels : let s := { mere 1 State.reset with filled := true, now := 10 ^ 7 }; let g := 744 * 2 ^ 25 - 1; let a := mereBase + 32 * g; let d := fun (n : Nat) => (⟨0, 0, 0, n, 0, 0⟩ : Defect);
    (a < mereEnd s ∧ s.filled = true ∧ { s with filled := false }.filled = false ∧ activeChans s = [0, 191] ∧
      partnerHalf s (getChan s (chanOf s a)) a = false ∧ partnerHalf { s with now := 25 } { halves := [(a - 32, 5)] } a = true ∧ partnerHalf { s with now := 26 } { halves := [(a - 32, 5)] } a = false ∧ mcState s (chanOf s a) = mcActive ∧ tblGet 0 s.damage (a / 64 * 64) = 0 ∧ a / 64 * 64 ∉ (getChan s (chanOf s a)).buf) ∧
    (mcState s 191 = mcActive ∧ getF s (mcPage 191) Mc.patrolEn ≠ 0 ∧ (getChan s 191).patrolAt + 100 ≤ s.now) ∧
    (∀ k ∈ [(5, 0), (6, 2)], let u := { sets [(bupPage, Bup.stage, 0, 8)] State.reset with chans := [(191, { stage := k.1, tries := k.2 })], dlog := [d 191] };
      inStage u 8 = true ∧ mcState u 191 = mcTraining ∧ chanLogged u 191 = false) ∧
    (let u := { sets ((List.range 192).map (fun c => (mcPage c, Mc.state, 0, if c < 16 then 5 else 1)) ++ [(bupPage, Bup.stage, 0, 8)]) State.reset with boot := { begun := true } };
      bootGo 8 u = true ∧ trained u = true ∧ ((List.range 192).filter (fun i => mcState u i == mcRetired)).length ≤ 16) ∧
    (∀ n ∈ [1000, 100000], let u := { s with chans := [(191, { last := s.now - n })] }; (getChan u 191).last + n ≤ u.now ∧ getF u (mcPage 191) Mc.sref ≠ 1) ∧
    (let u := { s with chans := [(191, { last := s.now - 999 })] }; u.now < (getChan u 191).last + 1000) ∧
    retrainWanted s 191 = true ∧ retrainWanted { s with now := 0 } 191 = false ∧ nextGrant (sets [(mcPage 191, Mc.due, 0, 1)] s) 11 = some 191 ∧
    (∀ n ∈ [1, 2], let u := { mere 2 State.reset with chans := [(191, { windows := n })], now := 5000 }; mcState u 191 = mcRetraining ∧ (getChan u 191).winEnd + 5000 ≤ u.now) ∧
    3 ≤ getF (sets [(mcPage 191, Mc.fails, 0, 3)] s) (mcPage 191) Mc.fails := by decide +kernel

/-- The state with interface 3 in a state, its port of two interfaces, its addresses and a connection 4095. -/
def port (st : Nat) (c : Conn) (s : State) : State :=
  { sets [(ethPage 1, Eth.mode, 0, 2), (ifcPage 3, Ifc.macLo, 0, 7), (ifcPage 3, Ifc.dataAddr, 2, 0xFFFF0000), (ifcPage 3, Ifc.dataAddr, 3, 1), (ifcPage 3, Ifc.mgmtAddr, 3, 2)] s
    with ifcs := [(3, { state := st })], conns := [(4095, c)] }

/-- A frame for the data or the management plane of interface 3. -/
def frame (mgmt : Bool) (bytes : List Byte) : Frame :=
  { parity := false, fcs := true, fecCe := 0, fecUc := 0, sec := none, dmac := 7, vid := if mgmt then 2 else 1, plain := true, saddr := 9, sum := true, udp := 47311, ce := false, bytes := bytes, pause := none,
    daddr := if mgmt then 0x02000000 else BitVec.ofNat 128 (0xFFFF * 2 ^ 32 + 0x01000000) }

/-- A Rasis packet's bytes: type, flags, destination, PSN, body. -/
def packet (type flags dst psn : Nat) (body : List Byte) : List Byte :=
  leBytes 32 (16 + type + flags * 256 + dst * 256 ^ 2 + body.length * 256 ^ 6 + psn * 256 ^ 8) ++ body

/-- Ports: frames that are taken and dropped, the addresses of both planes, a pause, and every time at its last edge. -/
theorem witness_Ports : let c : Conn := { state := .opened, rxPsn := 2 ^ 32 - 1 }; let s := port ifHold c State.reset; let syn := packet tNull 1 0xFFFF 5 (leBytes 24 1); let rd := packet tRegRd 0 4095 (2 ^ 32 - 1) (leBytes 16 0);
    (∀ m : Bool, let f := frame m rd; secOk s 3 f = true ∧ planeOf s 3 f = some m ∧ addressed s 3 f = true ∧ wireFormed f.bytes = true ∧ wireFormed (frame m (rd.take 47)).bytes = false) ∧
    planeOf s 3 { frame false rd with vid := 3 } = none ∧ addressed s 3 { frame false rd with udp := 1 } = false ∧
    ((parseWire syn).dst = 0xFFFF ∧ (parseWire syn).type = tNull ∧ wireFormed syn = true) ∧
    ((parseWire rd).dst = 4095 ∧ (parseWire rd).type ≠ tNull ∧ wrongKind 0 (parseWire rd).type = false ∧ (parseWire rd).psn = (getConn s 4095).rxPsn ∧ (getConn s 4095).early = []) ∧
    ifcAddr s 3 Ifc.dataAddr = 0xFFFF * 2 ^ 32 + 0x01000000 ∧ ifcAddr s 3 Ifc.mgmtAddr / 2 ^ 32 ≠ 0xFFFF ∧ (protect 3 s).1 = true ∧ getF s (ethPage 1) Eth.pfcEn ≠ 0 ∧
    getF (sets [(ethPage 1, Eth.pfcEn, 0, 0)] s) (ethPage 1) Eth.pfcEn = 0 ∧
    (let u := { sets [(ethPage 1, Eth.macsecEn, 0, 1)] s with macKeys := [(24, ⟨0, [], [], 2 ^ 64 - 1⟩)], ifcs := [(3, { state := ifUp, fecBad := true, txAn := some 0 })] }; macsecSpent u 3 = true ∧ (getIfc u 3).fecBad = true) ∧
    (let u := port ifTraining c State.reset; (getIfc u 3).state = ifTraining ∧ ifcPresent u 3 = true) ∧ (getIfc s 3).since + 10000000 ≤ { s with now := 10000000 }.now := by decide +kernel

/-- Ports: MACsec with a packet number above the last and at it, a pause frame to send, data on the management VLAN, a codeword past the limit, and faults in TRAINING. -/
theorem witness_Ports_more : let c : Conn := { state := .opened, rxPsn := 2 ^ 32 - 1 }; let s := port ifHold c State.reset; let rd := packet tRegRd 0 4095 (2 ^ 32 - 1) (leBytes 16 0); let f := frame false rd;
    let m := { sets [(ethPage 1, Eth.macsecEn, 0, 1)] s with macKeys := [(28, ⟨0, [], [], 7⟩)] };
    secOk m 3 { f with sec := some (0, 8, true) } = true ∧ secOk m 3 { f with sec := some (0, 7, true) } = false ∧ secOk m 3 f = false ∧ getF m (ethPage 1) Eth.macsecEn = 1 ∧
    (255 : Nat) &&& getF s (ethPage 1) Eth.pfcPrio ≠ 0 ∧ wrongVlan s true (parseWire rd) = true ∧ wrongVlan s false (parseWire rd) = false ∧
    wrongVlan s false (parseWire (packet tNull 1 0xFFFF 5 (leBytes 24 1))) = false ∧ ((parseWire rd).type == tMgmt) = false ∧ (getIfc s 3).fecBad = false ∧ (getIfc s 3).fecs.length + 16 ≤ 16 ∧
    (getIfc (port ifDown c State.reset) 3).state < ifHold ∧ (getIfc (port ifDown c State.reset) 3).state = ifDown := by decide +kernel

/-- Connections: a SYN that is admitted and one that is not, an answer, ends, and every timer at its last edge. -/
theorem witness_Connections_syn : let w := { parseWire (packet tNull 1 0xFFFF 5 (leBytes 24 1)) with path := 3 }; let s := { port ifUp {} State.reset with syns := [(9, w)] };
    let full := sets [(rasPage, Ras.admitValid, 0, 1), (rasPage, Ras.admitPfxLen, 0, 128)] s; let own : Conn := { state := .opening, unacked := [⟨{ w with dst := 0xFFFF }, 3, 0, false, true, false⟩] };
    let back := { port ifUp own State.reset with syns := [(9, { w with dst := 4095 })] };
    s.syns = [(9, w)] ∧ w.dst = 0xFFFF ∧ sameSyn s w = none ∧ admitted s 9 = true ∧ freeConn s = some 0 ∧ admitted full 9 = false ∧
    awaitsSyn (getConn back 4095) = true ∧ (getConn back 4095).kind ≠ 1 ∧ awaitsSyn (getConn s 4095) = false := by decide +kernel

theorem witness_Connections_ends : let s := { hedge 31 { owner := some 4095 } (port ifUp { state := .opened, fin := some 0 } State.reset) with now := 200 * 100000 };
    let u := port ifUp { state := .opened, kind := 2, inbox := [{ type := tNull, flags := 2, dst := 0, src := 0 }] } State.reset;
    (getConn s 4095).state ≠ .free ∧ (getConn s 4095).fin.isSome = true ∧ (∀ x, x < 32 → tblFind x s.shifts = none ∧ (getHedge s x).plot % 8 + (getHedge s x).width ≤ 8 ∧
      (getHedge s x).plot / 8 + (getHedge s x).height ≤ 4) ∧ (getConn s 4095).lastRx + getF s rasPage Ras.deadMs * 100000 ≤ s.now ∧
    (getConn u 4095).fin = none ∧ (getConn u 4095).inbox ≠ [] ∧ (∀ x, x < 32 → (getHedge u x).owner ≠ some 4095) := by decide +kernel

theorem witness_Connections_timers : let x : Sent := ⟨{ type := tNull, flags := 1, dst := 0, src := 4095, psn := 9 }, 3, 0, false, true, false⟩;
    let c : Conn := { state := .opened, acks := [⟨10, 0, false, false, 3⟩], probes := [3], owed := 1, unacked := [x], paths := [(3, { inUse := true })] };
    let s := { port ifUp c State.reset with now := 5000 }; let o := port ifUp { c with state := .opening } State.reset; let i := { port ifUp { c with unacked := [] } State.reset with now := 50 * 100000 };
    (getConn s 4095).txq = [] ∧ covers ⟨10, 0, false, false, 3⟩ 9 = true ∧ (getConn o 4095).state = .opening ∧ ifHold ≤ (getIfc s 3).state ∧ pausedNow s 3 (pcpOf s 3 tNull) = false ∧
    c.owedAt + 200 ≤ s.now ∧ (nullPath s c).isSome = true ∧ c.unacked.filter (fun x => x.path == 3 && decide (x.at_ + (getPath c 3).rto ≤ s.now)) ≠ [] ∧
    (let p : Path := { inUse := true, suspect := true }; (getPath { c with paths := [(3, p)] } 3).suspect = true ∧ p.probeAt = 0) ∧ (getPath c 3).inUse = true ∧ (getPath c 3).suspect = false ∧
    (getConn i 4095).unacked = [] ∧ (getConn i 4095).probed + getF i rasPage Ras.keepaliveMs * 100000 ≤ i.now ∧ (nullPath i (getConn i 4095)).isSome = true := by decide +kernel

/-- Connections: a SYN seen before, the acknowledgement of the device's FIN, a peer connection that is in use, unused for less and for DEAD_MS, a close that completes a begun MEM_WR,
and a path that takes what another one timed out. -/
theorem witness_Connections_more : let w := { parseWire (packet tNull 1 0xFFFF 5 (leBytes 24 1)) with path := 3 }; let dead := 200 * 100000;
    let same := { putConn 4095 { state := .opened, kind := bNat w.body 1 1, peer := w.src, addrs := synAddrs w.body, synPsn := w.psn } State.reset with syns := [(9, w)] };
    let fin : Sent := ⟨{ type := tNull, flags := fFin, dst := 0, src := 4095, psn := 9 }, 3, 0, false, true, false⟩; let cl := putConn 4095 { state := .closing, kind := 1, acks := [⟨10, 0, false, false, 3⟩], unacked := [fin] } State.reset;
    let idle := fun (used : Nat) => { putConn 4095 { state := .opened, kind := 1, lastRx := 1, usedAt := used } State.reset with now := dead };
    let wr : Wire := { type := tMemWr, flags := 0, dst := 4095, src := 0, body := leBytes 16 (mereBase - 64 + 64 * 2 ^ 64) ++ List.replicate 64 1 };
    let half := putConn 4095 { state := .opened, fin := some 0, begun := true, inbox := [wr] } State.reset;
    let two := { port ifUp { state := .opened, unacked := [⟨{ type := tNull, flags := 0, dst := 0, src := 4095 }, 3, 0, false, true, false⟩], paths := [(2, { inUse := true }), (3, { inUse := true })] } State.reset with ifcs := [(2, { state := ifUp }), (3, { state := ifUp })], now := 5000 };
    sameSyn same w = some 4095 ∧ sameSyn same { w with psn := 6 } = none ∧
    ((getConn cl 4095).state = .closing ∧ covers ⟨10, 0, false, false, 3⟩ 9 = true ∧ (fin.wire.flags / fFin) % 2 = 1) ∧
    (let u := idle 0; peerUnused u 4095 (getConn u 4095) = true ∧ (getConn u 4095).usedAt + getF u rasPage Ras.deadMs * 100000 ≤ u.now ∧ u.now < (getConn u 4095).lastRx + getF u rasPage Ras.deadMs * 100000) ∧
    (let u := idle 1; u.now < (getConn u 4095).usedAt + getF u rasPage Ras.deadMs * 100000) ∧
    (let u := putConn 4095 { getConn (idle 0) 4095 with addrs := [0] } (comm 2 (idle 0)); peerUnused u 4095 (getConn u 4095) = false) ∧
    ((getConn half 4095).begun = true ∧ (getConn half 4095).inbox = [wr] ∧ wr.type = tMemWr ∧ bNat wr.body 0 8 + bNat wr.body 8 4 ≤ mereBase ∧ wr.body.length = 16 + bNat wr.body 8 4) ∧
    (let q := putPath 3 { inUse := true, suspect := true } (getConn two 4095); pathTakes two q { type := tNull, flags := 0, dst := 0, src := 4095 } 2 = true ∧ pathLive two q 2 = true) := by decide +kernel

/-- The state after bring-up in which a request has arrived on host connection 4095, the owner of Hedge number 31, which holds the last plot and segment 0. -/
def asked (type : Nat) (body : List Byte) : State :=
  seg0 31 (hedge 31 { lastPlot .ready with owner := some 4095 } (sets [(bupPage, Bup.state, 0, 1)] (port ifUp { state := .opened, inbox := [{ type := type, flags := 0, dst := 4095, src := 0, msg := 9, body := body }] } State.reset)))

/-- HostRequests: register, memory and doorbell requests that the owner may make, and ones that are refused. -/
theorem witness_HostRequests : let rq := fun (a n : Nat) => leBytes 16 (a + n * 2 ^ 64); let seq := seqPage 4095; let last := spmBase 4095 + spmSize - 64;
    (∀ t ∈ [tRegRd, tRegWr, tMemRd, tMemWr, tDoorbell], (takeRequestOf 4095 t (asked t [])).isSome = true) ∧ (getConn (asked 1 []) 4095).kind = 0 ∧ (getConn (putConn 4095 { kind := 1 } State.reset) 4095).kind ≠ 0 ∧
    (let u := asked tRegRd (rq (seq + 0xFFC) 1); (∃ pg ∈ pageAt u seq, regRange u (seq + 0xFFC) 1 false = (rsOk, some pg) ∧ mayRead u 4095 pg = true ∧ mayRead u 0 pg = false ∧ (readWaits pg u).1 = false)) ∧
    regRange (asked 1 []) (seq + 0xFFC) 2 false = (rsMalformed, none) ∧ regRange (asked 1 []) 0x0F0200000000 1 true = (rsOk, pageAt (asked 1 []) 0x0F0200000000) ∧
    (let u := asked tRegWr (rq (seq + 0x10) 1 ++ leBytes 4 1); ∃ pg ∈ pageAt u seq, pageCore pg = some 4095 ∧ (pageLock u pg).1 = 0 ∧ mayWriteCore u 4095 4095 = true ∧ mayWriteCore u 0 4095 = false) ∧
    (let u := asked tMemRd (rq last 64); let w : Wire := { type := tMemRd, flags := 0, dst := 4095, src := 0, body := rq last 64 }; memForm u w last 64 = true ∧ memRight u 4095 false last 64 = 0 ∧ memRight u 0 false last 64 = 1 ∧
      memForm u w (last + 4) 64 = false ∧ memRight u 4095 true mereBase 64 = 0) ∧
    (let u := asked tDoorbell []; deviceReady u = true ∧ doorbellQueue 0 31 = some 31 ∧ (pageLock u (pgQue 31)).1 = 0 ∧ ownsHedge u 4095 (queHedge u 31) = true ∧ ringDist (getF u (quePage 31) Que.head) 16 ≤ 2 ^ getF u (quePage 31) Que.ringLog2) ∧
    deviceReady State.reset = false := by decide +kernel

/-- HostRequests: a core page and a scratchpad whose cluster is in retention, a damaged word, a body of another length, and a doorbell of no queue. -/
theorem witness_HostRequests_waits : let last := spmBase 4095 + spmSize - 64; let z := fun (t : Nat) => sets [(clkPage 286, Clk.state, 0, 3)] (asked t []); let w : Wire := { type := tMemRd, flags := 0, dst := 4095, src := 0, body := leBytes 16 (last + 64 * 2 ^ 64) };
    (∃ pg ∈ pageAt (z tRegRd) (seqPage 4095), regRange (z tRegRd) (seqPage 4095) 1 false = (rsOk, some pg) ∧ mayRead (z tRegRd) 4095 pg = true ∧ (readWaits pg (z tRegRd)).1 = true) ∧
    memForm (z tMemRd) w last 64 = true ∧ memRight (z tMemRd) 4095 false last 64 = 2 ∧ memRight (z tMemWr) 4095 true last 64 = 2 ∧
    (let u := { asked tMemRd [] with damage := [(last, 3)] }; memRight u 4095 false last 64 = 0 ∧ last < mereBase ∧ ∃ e ∈ damageIn u last 64, e.2 ≠ 1) ∧
    doorbellQueue 5 0 = none ∧ (asked tRegWr []).jobs = [] := by decide +kernel

/-- A management connection with the first fragment of a request and one with the whole of it, and a Mailbox queue's request. -/
def asksBlock : List Byte := leBytes 64 (0x50525651 + 256 ^ 4 + 256 ^ 6)
def mgmtWith (n : Nat) : State :=
  putConn 4095 { state := .opened, kind := 2, inbox := [{ type := tMgmt, flags := 0, dst := 4095, src := 0, body := leBytes 32 (mkRequest + 7 * 256 ^ 4 + 64 * 256 ^ 8) ++ asksBlock.take n }] } (sets [(bupPage, Bup.state, 0, 1)] State.reset)
def mailbox : State :=
  let d := desc [(0, 1, 1), (0x10, 8, mereBase), (0x18, 4, 64), (0x20, 8, mereBase + 64), (0x28, 4, 256)]
  put mereBase asksBlock (seg0 5 (que 131 (busyWith d) (sets [(quePage 131, Que.hedge, 0, 5), (bupPage, Bup.state, 0, 1)] (hedge 5 (lastPlot .ready) State.reset))))

theorem witness_HostRequests_privet : (∀ n ∈ [63, 64], let s := mgmtWith n; privetUp s = true ∧ (∃ w ∈ (getConn s 4095).inbox.head?, w.type = tMgmt ∧ bNat w.body 0 1 = mkRequest ∧ 32 ≤ w.body.length ∧ bNat w.body 0xC 4 = 0 ∧
      (w.body.drop 32).length = n ∧ bNat w.body 8 4 = 64) ∧ (getConn s 4095).kind = 2 ∧ tblFind 4095 s.frags = none) ∧
    (let r := asksBlock; rqFormed r = true ∧ cmdClass (rqCmd r) = some (rqClass r) ∧ payloadFormed (rqCmd r) (rqPayload r) = true) ∧
    (let s := mailbox; ∃ f ∈ startedOp s 131 1, s.preqs = [] ∧ s.busy = none ∧ inSegments s (queHedge s 131) (dNat f.desc 0x10 8) (dNat f.desc 0x18 4) = true ∧
      inSegments s (queHedge s 131) (dNat f.desc 0x20 8) (dNat f.desc 0x28 4) = true ∧ memList s (dNat f.desc 0x10 8) (dNat f.desc 0x18 4) = asksBlock) := by decide +kernel

theorem witness_HostRequests_sound : Sound mailbox := sound_of _ (by decide +kernel) (by decide +kernel)

/-- HostRequests: what EVENT tells, and whom. -/
theorem witness_HostRequests_events : let k : Conn := { state := .opened, devEvents := true }; let s := { hedge 31 { lastPlot .ready with owner := some 4095 } (port ifUp k State.reset) with notices := [.link 3 true], evtDue := [seqPage 4095] };
    deviceListeners s = [4095] ∧ (getHedge s 31).owner = some 4095 ∧ getF s (seqPage 4095) Hdr.evtHold ≠ 1 ∧ getF (sets [(seqPage 4095, Hdr.evtHold, 0, 1)] s) (seqPage 4095) Hdr.evtHold = 1 ∧
    ∃ pg ∈ eventPage s (seqPage 4095), pg.ty ≠ .scratchpad ∧ pg.ty ≠ .counterBank ∧ pg.ty ≠ .router ∧ pageHedge s pg = some 31 := by decide +kernel

/-! ## Small states: power, clocks, bring-up, sites and Privet -/

/-- The state with a cluster's Spring and clock in given states, the bulk cells on and Privet at work. -/
def lit (cl spr clk : Nat) (s : State) : State :=
  let u := sets [(sprPage cl, Spr.state, 0, spr), (clkPage cl, Clk.state, 0, clk), (inpPage, Inp.bulkEn, 0, 1), (inpPage, Inp.good, 0, 68), (inpPage, Inp.cellOk, 2, 128)] s
  { u with pwr := { u.pwr with pwrGood := true } }

/-- PowerInput: both bars, the limits of their voltages, a low rail, the last cell, and a failure of power. -/
theorem witness_PowerInput : let s := lit 287 2 1 State.reset; let x := fun (a b : Nat) => sets [(inpPage, Inp.bar0State, 0, a), (inpPage, Inp.bar1State, 0, b)] s;
    let f := fun (u : State) => ({ u with pwr := { u.pwr with failing := true } } : State);
    (barState (x 0 1) 0 = 0 ∧ s.pwr.privetOn = true ∧ barsGood (x 0 1) = 1 ∧ getF (x 0 1) pctPage Pct.forced ≠ 1) ∧ barState (x 0 1) 1 ≠ 0 ∧
    (barState (x 0 1) 1 = 3 ↔ barCode .reversed ≠ 3) ∧ (barState (x 0 3) 1 = 3 ↔ barCode .low ≠ 3) ∧ (f s).pwr.failing = true ∧ s.pwr.failing = false ∧
    getF s inpPage Inp.bulkEn ≠ 0 ∧ cellOk s 71 = true ∧ cellOk s 70 = false ∧ barsGood (x 1 3) = 0 ∧ barsGood (x 0 1) ≠ 0 ∧
    (∀ e ∈ [(BarState.low, 289), (.overvolt, 421), (.reversed, 0), (.opened, 300)], barShows e.1 e.2 = true) ∧ barShows .low 290 = false ∧ barShows .overvolt 420 = false ∧
    (let d := { x 0 1 with pwr := { s.pwr with privetOn := false } }; barState d 0 = 0 ∧ d.pwr.privetOn = false) := by decide +kernel

/-- Springs, of the last cluster: the counts of phases at 10, 9 and 2, a forecast at the step code 0 and at 4, and every time at its last edge. -/
theorem witness_Springs : let r := fun (fc : Nat) => (⟨0, 0, false, fc, 1, 0, [], 0, true, [], 0⟩ : StepRun); let pg := sprPage 287;
    let s := fun (spr fc : Nat) (c : Cluster) => { lit 287 spr 1 (hedge 31 { lastPlot .running with run := some (r fc) } State.reset) with now := 10000, clus := [(287, c)] };
    let ph := fun (n : Nat) => sets [(pg, Spr.healthy, 0, n + 1)] (s 2 0 {});
    (∀ n ∈ [11, 10, 9, 3, 2], sprUp (ph n) 287 = true ∧ (getF (ph n) pg Spr.phaseOk).testBit 11 = true ∧ getF (ph n) pg Spr.healthy - 1 = n) ∧
    (∀ k ∈ [0, 4], hedgeOfPlot (s 2 k {}) (plotOfCluster 287) = some 31 ∧ (getHedge (s 2 k {}) 31).run = some (r k) ∧ (r k).armed = true ∧ clusterGone (s 2 k {}) 287 = false ∧ sprState (s 2 k {}) 287 = sprActive ∧
      clusterGone (s 4 k {}) 287 = true) ∧ (s 2 0 {}).pinned = [] ∧
    sprState (s 1 0 {}) 287 = sprRamp ∧ (let u := sets [(pg, Spr.ffActive, 0, 1)] (s 2 0 { fcAt := 8000 }); getF u pg Spr.ffActive = 1 ∧ (getClus u 287).fcAt + 2000 ≤ u.now) ∧
    (getF (s 2 0 {}) pg Spr.ffActive = 0 ∧ (getClus (s 2 0 {}) 287).fcAt + 10000 ≤ (s 2 0 {}).now) ∧
    (let u := { s 3 0 {} with wakeReqs := [287] }; 287 ∈ u.wakeReqs ∧ sprState u 287 = sprRetention ∧ mayRamp u 287 = true) ∧
    (getClus (s 1 0 { standby := true, fcWaits := true }) 287).standby = true ∧ hedgeOfPlot State.reset 31 = none := by decide +kernel

/-- Springs: whatever the phase of the wake sequencer is, an edge at which a cluster's window starts. -/
theorem witness_Springs_window : ∀ cl : ClusterId, let s := { State.reset with now := 210 * wakePhase cl + (630 - (Config.wakeCycle 0 + 635) % 630) }; inWindow s cl = true := by
  intro cl
  have hp : wakePhase cl < 3 := Nat.mod_lt _ (by decide)
  refine decide_eq_true ?_
  show (210 * wakePhase cl + (630 - (Config.wakeCycle 0 + 635) % 630) - 0 + Config.wakeCycle 0 + 635 - 210 * wakePhase cl) % 630 ≤ 10
  omega

/-- Springs: estimates at 1.40 × RBASE whose hundredth is due a warning, one at 2 × RBASE that retires the cluster, and one below both. -/
theorem witness_Springs_estimates : let c : Cluster := { highs := List.replicate 99 1 }; let pg := sprPage 287; let s := { lit 287 2 1 (sets [(pg, Spr.rbase, 0, 10)] State.reset) with now := 10 * secEdges, clus := [(287, c)] };
    sprState s 287 = sprActive ∧ getF s pg Spr.rbase = 10 ∧ 10 * 14 ≤ 14 * 10 ∧ c.lowAt + 1000000000 ≤ s.now ∧ 100 ≤ ((s.now :: c.highs).filter (fun t => decide (s.now ≤ t + 1000000000))).length ∧ getF s pg Spr.impWarn = 0 ∧ 512 ≤ median [20] * 256 / 10 ∧
    median [14] * 256 / 10 < 512 ∧ getF s pg Spr.impRetire = 0 := by decide +kernel

/-- Clocks: the oscillators, and every state of the last cluster's generator with its times at their last edges. -/
theorem witness_Clocks_generators : let s := fun (spr clk : Nat) (c : Cluster) => { lit 287 spr clk State.reset with now := 10 ^ 6, clus := [(287, c)] }; let o := sets [(refPage, Ref.osc1Lost, 0, 1)] State.reset;
    getF o refPage Ref.osc1Lost = 1 ∧ getF o refPage Ref.osc0Lost ≠ 1 ∧ clkState (s 2 1 {}) 287 = 1 ∧ clusterIdle (s 2 1 {}) 287 = true ∧
    (getClus (s 2 1 { busyAt := 10 ^ 6 - 2 * usEdges }) 287).busyAt + getF (s 2 1 {}) (clkPage 287) Clk.gateUs * usEdges ≤ (s 2 1 {}).now ∧
    (clkState (s 2 2 {}) 287 = 2 ∧ (getClus (s 2 2 { clkAt := 10 ^ 6 - msEdges }) 287).clkAt + getF (s 2 2 {}) (clkPage 287) Clk.standbyMs * msEdges ≤ (s 2 2 {}).now) ∧
    (let u := sets [(sprPage 287, Spr.pgood, 0, 1)] (s 2 3 {}); locking u 287 = true ∧ (getClus u 287).lockTry = 0) ∧
    (let u := sets [(sprPage 287, Spr.pgood, 0, 1)] (s 2 0 { relock := true, lockTry := 1 }); locking u 287 = true ∧ 1 ≤ (getClus u 287).lockTry) ∧
    (let u := { s 2 1 {} with pwr := { (s 2 1 {}).pwr with switched := some (10 ^ 6 - 8) } }; 10 ^ 6 - 8 + 8 ≤ u.now ∧ getF u (clkPage 287) Clk.step ≠ stepCode u) := by decide +kernel

/-- Clocks: step changes up to the fused step, down to 10, refused below it, with a droop, and their switch at its last edge; a droop. -/
theorem witness_Clocks_steps : let v := fun (spr : Nat) => sets [(sprPage 287, Spr.pgood, 0, 1), (sprPage 287, Spr.vcode, 0, 127)] (lit 287 spr 1 State.reset); let s := { v 2 with now := 32 };
    let d := { s with pwr := { s.pwr with droopAt := some 0 } }; let a := { s with pwr := { s.pwr with arm := some ⟨33, 32, 0, false⟩ } };
    (∀ cl ∈ activeSprings s, fusedV s cl 33 ≤ getF s (sprPage cl) Spr.vcode ∧ getF s (sprPage cl) Spr.pgood = 1) ∧ stepCode s < 33 ∧ getF s pctPage Pct.forced ≠ 1 ∧ fusedStep s = 33 ∧
    getF s refPage Ref.source ≠ 2 ∧ recentDroop s = false ∧ recentDroop d = true ∧ s.pwr.heldTo ≤ s.now ∧ stepCode s = 10 ∧
    (a.pwr.arm = some ⟨33, 32, 0, false⟩ ∧ 0 + 32 ≤ a.now ∧ 287 ∈ activeSprings a ∧ fusedV a 287 33 < 128) ∧
    clkState s 287 = 1 ∧ (let u := { a with now := 15 }; u.now + 16 < 0 + 32) ∧ getF (sets [(clkPage 287, Clk.stretching, 0, 1)] s) (clkPage 287) Clk.stretching ≠ 0 := by decide +kernel

/-- Control: force-minimum and its release, the loops' periods, a step decision up, down and neither. -/
theorem witness_Control_loops : let s := { lit 287 2 1 State.reset with now := 10 ^ 6 }; let c := fun (l n : Nat) => { s with clus := [(287, { lSum := l, lCnt := n, okRun := 7 })] };
    let f := sets [(pctPage, Pct.forced, 0, 1)] s; let h := { hedge 31 (lastPlot .bound) s with now := 10 ^ 6 };
    getF s inpPage Inp.bulkEn ≠ 0 ∧ s.pwr.privetOn = true ∧ getF s pctPage Pct.forced ≠ 1 ∧ getF f pctPage Pct.forced ≠ 0 ∧ s.pwr.away = none ∧
    clkState s 287 = 1 ∧ getF s (sprPage 287) Spr.efflim * 256 < 65535 ∧ (getClus (c 0 0) 287).okRun = 7 ∧ sprUp s 287 = true ∧ clkState State.reset 287 ≠ 1 ∧ clkState State.reset 287 ≠ 2 ∧ sprUp State.reset 287 = false ∧ beforeS7 (sets [(bupPage, Bup.state, 0, 1)] s) = false ∧ getF State.reset inpPage Inp.bulkEn = 0 ∧ beforeS7 State.reset = true ∧ (getClus s 287).droopAt = none ∧ privetRuns s = true ∧ s.grants = [] ∧
    (let u := sets [(sprPage 287, Spr.vout, 0, 1000), (sprPage 287, Spr.iout, 0, 2560)] h; 0 < springWatts u ∧ sprUp u 287 = true ∧ (budgetHedge u 287).isSome = true ∧
      (List.range 287).all (fun k => !sprUp u k) = true) ∧
    (0 < 1 ∧ 11 < 12 * 1 ∧ (∀ k ∈ ranClusters (c 16 1), (getClus (c 16 1) k).lSum = 16 * (getClus (c 16 1) k).lCnt) ∧ ranClusters (c 11 1) = [287] ∧ stepCode s < fusedStep s ∧
      s.pwr.decided + msEdges ≤ s.now ∧ 10 < stepCode (sets [(refPage, Ref.step, 0, 33)] s)) := by decide +kernel

/-- Control: samples at the limits of each action, the hold's release, the refit, and the check of an estimate. -/
theorem witness_Control_heat : let s := { lit 287 2 1 State.reset with now := 10 ^ 7 };
    (∀ top ∈ [439, 440, 499, 500, (600 : Int)], let ts := [top, top - 60, top, top]; (∀ x ∈ ts, -160 ≤ x ∧ x ≤ 600) ∧ (∀ x ∈ ts, ∀ y ∈ ts, x - y ≤ 60) ∧ ts.getD 0 0 = top ∧
      (∀ k ∈ List.range 4, ts.getD k 0 ≤ top)) ∧ (getC s 287 Cpc.sensorOk).testBit 0 = true ∧ getC s 287 Cpc.hold = 0 ∧
    (let u := setC 287 Cpc.hold 1 s; getC u 287 Cpc.hold = 1 ∧ getC u 287 Cpc.tC < 580 ∧ (getClus u 287).warmAt + msEdges ≤ u.now) ∧
    (let u := { s with clus := [(287, { measSum := 1024, measN := 2, offRun := 19, inRun := 99, recalDue := true })] }; let c := getClus u 287;
      0 < c.measN ∧ 512 * c.measN ≤ c.measSum ∧ c.measSum < 4 * (c.measSum - c.estSum) ∧ getC u 287 Cpc.diverged = 0 ∧ 20 ≤ (getClus u 287).offRun + 1 ∧ recalSlot u 287 = true ∧ (getClus u 287).recalDue = true) ∧
    (let u := { s with clus := [(287, { recalAt := some 0 })] }; (getClus u 287).recalAt = some 0 ∧ recalSlot u 287 = true ∧ 0 + 10000 ≤ u.now) := by decide +kernel

/-- MereReduction: a package at 95 °C, all at 90 °C, one between, with the reduction at its ends and its times at their last edges. -/
theorem witness_MereReduction : let s := { lit 287 2 1 State.reset with now := 10 ^ 7 }; let temps := fun (t : Nat) => sets ((mcPage 188, Mc.temp, 0, t) :: (List.range 47).map (fun p => (mcPage (4 * p), Mc.temp, 0, 90))) s;
    let cut := fun (n at' : Nat) (u : State) => { u with pwr := { u.pwr with mereCut := n, mereAt := at' } };
    privetRuns (temps 95) = true ∧ (∃ m ∈ mereTemps (temps 95), 95 ≤ m) ∧ (∀ m ∈ mereTemps (temps 90), m ≤ 90) ∧ (¬ ∃ m ∈ mereTemps (temps 94), 95 ≤ m) ∧ (¬ ∀ m ∈ mereTemps (temps 94), m ≤ 90) ∧
    (let u := cut 9 (10 ^ 7 - 10 * msEdges) s; u.pwr.mereAt + 10 * msEdges ≤ u.now ∧ u.pwr.mereCut < 10) ∧ (let u := cut 1 0 s; 0 < u.pwr.mereCut ∧ u.pwr.mereAt + 100 * msEdges ≤ u.now) ∧
    s.pwr.mereCut = 0 := by decide +kernel

/-- Steering: a Hedge that has waited while a member waits least, a member that does not, and leases at their last edges. -/
def steered : State :=
  let h := { lastPlot .ready with steered := true, sgroup := 255 }
  { sets [(pctPage, Pct.hbBase, 31, 500), (pctPage, Pct.hbEligible, 31, 1)] (hedge 31 h State.reset) with
    now := 500000, waited := [(31, 500000)], reports := [⟨255, 7, 0, 500, 0, true, 500000⟩],
    flash := { State.reset.flash with steer := [(255, ⟨1, [], List.replicate 128 0xFF, [(7, 8)], 1⟩)] } }

theorem witness_Steering : let s := steered; let g : Grant := ⟨false, 31, 255, 7, 9, 50, 0, 0⟩; let k := { s with now := 20 * msEdges, grants := [g, { g with given := true }] };
    s.pwr.epochAt + 500000 ≤ s.now ∧ s.pwr.away = none ∧ s.pwr.privetOn = true ∧ steeredHedges s = [31] ∧ steeredHedges State.reset = [] ∧
    (∃ tab ∈ getTab s 255, ∃ r ∈ pickReceiver s 255 tab.own (minWait s 255 (waitOf s 31)), r.from' = 7) ∧
    100 * minWait s 255 (waitOf s 31) + 5 * 65536 ≤ 100 * waitOf s 31 ∧ 0 < hb s 31 Pct.hbBase / 100 ∧ lapsed k g = true ∧ lapsed k { g with given := true } = false := by decide +kernel

/-- A steering message of a kind from member 7 to group 255, with its HMAC. -/
def steerMsg (kind counter : Nat) (b : List Byte) : Wire :=
  let head := leBytes 32 (mkSteer + counter * 256 ^ 16) ++ leBytes 32 (kind + 255 * 256 + 7 * 256 ^ 2 + leNat b * 256 ^ 8)
  { type := tMgmt, flags := 0, dst := 4095, src := 0, body := head ++ hmac384 (List.replicate 128 0xFF) head }

/-- The state in which a steering message of a kind waits on connection 4095, with a grant of each direction in force. -/
def told (kind : Nat) (b : List Byte) (gs : List Grant) : State :=
  { steered with conns := [(4095, { state := .opened, kind := 2, inbox := [steerMsg kind 9 b] })], grants := gs }

/-- Steering: each message, with a grant it names and without one. -/
theorem witness_Steering_messages : ∀ kind ∈ [kReport, kGrant, kAccept, kRefuse, kReturn], ∀ gs ∈ [[], [(⟨true, 31, 255, 7, 9, 50, 0, 0⟩ : Grant), ⟨false, 31, 255, 7, 9, 50, 0, 0⟩]],
    let s := told kind (leBytes 12 (9 * 256 ^ 4 + 50 * 256 ^ 8)) gs; let w := steerMsg kind 9 (leBytes 12 (9 * 256 ^ 4 + 50 * 256 ^ 8)); let t : SteerTab := ⟨1, [], List.replicate 128 0xFF, [(7, 8)], 1⟩;
    ((getConn s 4095).inbox = [w] ∧ s.pwr.away = none ∧ w.type = tMgmt ∧ bNat w.body 0 1 = mkSteer ∧ bNat w.body 32 1 = kind) ∧ bNat w.body 34 1 = 7 ∧
    getTab s (bNat w.body 33 1) = some t ∧ tblGet 0 t.seen 7 < bNat w.body 0x10 8 ∧ groupHedge s (bNat w.body 33 1) = some 31 ∧ (bNat (w.body.drop 32) 0xA 2).testBit 0 = false ∧
    bNat (w.body.drop 32) 0xC 4 = 9 ∧ 10 * bNat (w.body.drop 32) 0x10 4 ≤ hb s 31 Pct.hbBase ∧ mayReceive s = true ∧ ((givenGrant s 31 7 (w.body.drop 32)).isSome = true ↔ gs ≠ []) := by
  decide +kernel

theorem witness_Steering_hmac : let w := steerMsg kReport 9 (leBytes 12 (9 * 256 ^ 4 + 50 * 256 ^ 8)); let s := told kReport (leBytes 12 (9 * 256 ^ 4 + 50 * 256 ^ 8)) []; ∃ u, SteerMsg 4095 kReport 31 7 (w.body.drop 32) s u :=
  ⟨_, steerMsg kReport 9 (leBytes 12 (9 * 256 ^ 4 + 50 * 256 ^ 8)), [], ⟨1, [], List.replicate 128 0xFF, [(7, 8)], 1⟩, by decide +kernel, by decide +kernel, by decide +kernel, by decide +kernel, by decide +kernel, by decide +kernel, by decide +kernel,
    by decide +kernel, by decide +kernel, by decide +kernel, by decide +kernel, rfl⟩

/-! ## Bring-up, sites and resets -/

/-- The state in a stage of bring-up with what the stages before it found. -/
def boot (n : Nat) (b : Boot) (s : State) : State := { sets [(bupPage, Bup.stage, 0, n)] s with boot := { b with begun := decide (n ≠ 0) } }

/-- BringUp: S0 with every outcome, S1 at the limits of the rail and with four and five cells off, and S2 with and without a word that three copies differ on. -/
theorem witness_BringUp_first : let s := boot 0 {} State.reset; let fl := fun (f : Flash → Flash) => ({ s with flash := f s.flash } : State); let d := fun (n : Nat) => (⟨4, 1, 0, n, 0, 0⟩ : Defect);
    let f := { boot 2 {} State.reset with fuses := { State.reset.fuses with mapA := [(0, 1)], mapB := [(0, 2)] } };
    bootGo 0 s = true ∧ s.boot.begun = false ∧ getF s refPage Ref.osc0Lost = 0 ∧ getF s refPage Ref.osc1Lost = 0 ∧ s.flash.validA = true ∧ s.flash.slot = 0 ∧ s.flash.config = [] ∧ s.flash.trial = false ∧
    (fl (fun f => { f with slot := 1, validB := true, validA := false, trial := true, trials := 1 })).flash.trials < 2 ∧ bootGo 1 (boot 1 {} s) = true ∧
    ((List.range 72).filter (fun i => cellHeld { s with dlog := [d 68, d 69, d 70, d 71], powerOn := 0 } i)).length = 4 ∧ bootGo 2 f = true ∧ (∃ w ∈ fuseWords f.fuses, voteAt f.fuses w = none) ∧
    fuseWords (boot 2 {} s).fuses = [] := by decide +kernel

/-- BringUp: S3's last wave with clusters held and not, and S4 with a signature that differs. -/
theorem witness_BringUp_waves : let w := { boot 3 { wave := 17 } State.reset with now := 340000, dlog := [(⟨1, 6, 0, 278, 0, 0⟩ : Defect)] };
    let run := sets [(clkPage 286, Clk.state, 0, 1), (clkPage 287, Clk.state, 0, 1)] (boot 4 {} State.reset);
    (bootGo 3 w = true ∧ w.boot.stageAt + w.boot.wave * 20000 ≤ w.now ∧ 278 ∈ waveClusters 17 ∧ (∃ cl ∈ waveClusters 17, clusterHeld w cl = false) ∧ clusterHeld w 278 = true ∧
      2 < getF w (sprPage 287) Spr.healthy) ∧
    (bootGo 4 run = true ∧ siteRuns run 4607 = true ∧ sigBad run (fun p => if p = 4607 then 1 else 0) [] 4607 = true ∧ sigBad run (fun _ => 0) [] 4607 = false) := by decide +kernel

/-- The state at S5 with the bad sites as holes. -/
def mapped (bad : List Nat) : State := { boot 5 { bad := bad } State.reset with holes := bad }

/-- Two holes in a group of every plot, and the sites on both sides of the first group's end in rows 0 to 15. -/
def allShort : List Nat := (List.range 32).flatMap (fun p => [siteAt (p / 8 * 16) (9 * (p % 8)), siteAt (p / 8 * 16) (9 * (p % 8) + 1)])
def allCut : List Nat := (List.range 16).flatMap (fun r => [siteAt r 8, siteAt r 9])

/-- BringUp: S5 with maps that halt and one that does not. -/
theorem witness_BringUp_short : bootGo 5 (mapped allShort) = true ∧ (mapped allShort).boot.badPath = [] ∧ (shortPlots (mapped allShort)).length = 32 := by decide +kernel
theorem witness_BringUp_cut : (shortPlots (mapped allCut)).length ≠ 32 ∧ (noDetour { mapped allCut with disabled := shortPlots (mapped allCut) }).isSome = true := by
  refine ⟨fun h => ?_, by decide +kernel⟩
  have := (List.length_filter_lt_length_iff_exists (l := List.range 32)
    (p := fun p => (List.range 16).any (fun i => groupShort (mapped allCut) (p / 8 * 16 + i) (p % 8)))).mpr ⟨0, by decide, by decide +kernel⟩
  rw [List.length_range] at this
  exact absurd h (Nat.ne_of_lt this)
theorem witness_BringUp_whole : shortPlots (mapped [4607]) = [] ∧ noDetour (mapped [4607]) = none := by decide +kernel

theorem witness_BringUp_last : let s := fun (n : Nat) (b : Boot) => boot n b (port ifHold {} State.reset); let up := { s 9 { linking := true } with ifcs := [(0, { state := ifUp }), (2, { state := ifHold }), (3, { state := ifHold })] };
    bootGo 6 (s 6 { bad := [4607] }) = true ∧ 4607 ∈ (s 6 { bad := [4607] }).boot.bad ∧ bootGo 7 (s 7 { passes := 1 }) = true ∧ bootGo 9 (s 9 {}) = true ∧ (s 9 {}).boot.linking = false ∧
    (bootGo 9 up = true ∧ ∀ i ∈ (List.range 4).filter (ifcPresent up), i ∈ ifcsUp up) ∧ (∃ i ∈ (List.range 4).filter (ifcPresent (s 9 {})), i ∉ ifcsUp (s 9 {})) ∧
    (boot 7 { passes := 1 } State.reset).boot.passes = 1 ∧ (s 10 {}).boot.ports = false ∧ bootGo 10 (s 10 {}) = true ∧ (s 10 {}).pwr.forceLow = false ∧ (let u := fun (n : Nat) => { s n {} with pwr := { (s n {}).pwr with forceLow := true } }; bootGo 6 (u 6) = true ∧ bootGo 10 (u 10) = true ∧ beforeS7 (u 6) = true) ∧ (∀ n ∈ List.range 10, bootGo n (s n {}) = true) ∧ bootGo 0 { s 0 {} with boot := { begun := true } } = true := by decide +kernel

/-- Sparing: the last site's heartbeat, a shift of its Hedge from plan to commit, and planned retirements of sites with and without work. -/
theorem witness_Sparing_shifts : let f := { lit 286 2 1 (lit 287 2 1 (hedge 31 (lastPlot .frozen) State.reset)) with failed := [(4606, 1)], now := 10 ^ 6 }; let sh : Shift := { sites := [4606], planned := false, resume := .ready };
    let c := fun (x : Shift) => { f with shifts := [(31, x)] }; let pl := fun (e : Nat) (st : HState) (p : Nat) (k : State) => { hedge 31 (lastPlot st) k with planned := [(p, e)] };
    (4606 ∉ f.holes ∧ clkState f (clusterOfSite 4606) = 1 ∧ hbMissed f 4606 = true ∧ getF f (sitePage 4606) Site.alive ≠ 1 ∧ hbMissed { f with now := 0 } 4606 = false) ∧
    (failedIn f (getHedge f 31) ≠ [] ∧ tblFind 31 f.shifts = none ∧ (getHedge f 31).state = .frozen ∧ shortSites f [4606] = false ∧ shortSites { f with holes := [4605] } [4606] = true ∧
      f.jobs = [] ∧ (getQueue f 31).resetting = false) ∧
    ((∀ cl ∈ shiftReceivers sh.sites, clkState (c sh) cl = 1) ∧ tblFind 31 (c sh).shifts = some sh ∧ (getHedge f 31).killWaits = false ∧ (getHedge f 31).run = none ∧
      siteRow 4606 = siteRow 4607 ∧ siteCol 4606 / 9 = siteCol 4607 / 9 ∧ siteCol 4606 ≤ siteCol 4607) ∧
    (touchedPlot State.reset 4607 = none ∧ touchedPlot State.reset 4606 = some 31 ∧ hedgeOfPlot State.reset 31 = none ∧ shortSite State.reset 4606 = false ∧
      shortSite { State.reset with holes := [4605] } 4606 = true ∧ hedgeOfPlot (pl 0 .bound 4606 State.reset) 31 = some 31 ∧ failedIn (pl 0 .bound 4606 State.reset) (lastPlot .bound) = []) ∧
    (∀ q ∈ clusterSites (clusterOfSite 4607), touchedPlot { State.reset with holes := clusterSites (clusterOfSite 4607) } q = none) := by decide +kernel

theorem witness_Sparing_tests : let s := { lit 286 2 1 (sets [(bupPage, Bup.state, 0, 1)] State.reset) with now := 10 ^ 6, cores := [(4095, { mode := .idle })], holes := [] };
    let t := fun (d : List (Nat × Nat)) (third : Bool) => (⟨1, [(0, 0), (1, 0)], [4607], d, third⟩ : TestRun);
    testable s 4606 = true ∧ testWakes (lit 286 sprRetention 3 s) 4606 = true ∧ testable State.reset 4606 = false ∧ testWakes State.reset 4606 = false ∧ 4607 ∈ inTest { s with tests := [t [] false] } ∧ decided (t [(0, 5), (1, 6)] false) = true ∧
    decided (t [(0, 5), (1, 6)] true) = false ∧ decided (t [(0, 5), (1, 6), (2, 7)] true) = true ∧ s.pwr.failing = false ∧ s.pwr.away = none ∧ s.pwr.privetOn = true := by decide +kernel

/-- Sparing: two equal digests, a three-way vote each way and a split, and CEs whose second has passed when the journal commits. -/
theorem witness_Sparing_votes : let t := fun (d : List (Nat × Nat)) (third : Bool) => ({ State.reset with tests := [⟨1, [], [], d, third⟩] } : State); let two := [(0, 5), (1, 5)];
    (∀ d ∈ [two, [(0, 5), (1, 6)]], ∃ r ∈ (t d false).tests.find? decided, r.digests = d) ∧ (∀ d ∈ [[(0, 5), (1, 6), (2, 5)], [(0, 5), (1, 6), (2, 6)], [(0, 5), (1, 6), (2, 7)]], ∃ r ∈ (t d true).tests.find? decided, r.digests = d) ∧
    (let s := { State.reset with ceAgg := [(seqPage 4095, ⟨0, 3, 1⟩)], now := 100000000 }; 0 + 100000000 ≤ s.now ∧ (pageAt s (seqPage 4095)).isSome = true ∧ s.jover = 0 ∧ s.jbuf.length < 512 ∧
      s.pwr.failing = false ∧ s.pwr.away = none ∧ s.pwr.privetOn = true) := by decide +kernel

theorem witness_Resets : let s := { State.reset with now := msEdges, resetAt := some 0 }; let aw := fun (n : Nat) => { s with pwr := { s.pwr with away := some 0 }, now := n }; let off := { s with pwr := { s.pwr with privetOn := false } };
    resettable s ∧ s.resetAt = some 0 ∧ 0 + msEdges ≤ s.now ∧ off.pwr.privetOn = false ∧ (∀ e ∈ off.fresh, e / 32 % 4096 = 0) ∧ s.pwr.privetOn = true ∧ s.pwr.away = none ∧ bootRunning s = false ∧
    bootRunning (boot 9 {} s) = true ∧ (aw (500 * msEdges)).pwr.away = some 0 ∧ s.pwr.escalated = false ∧ 287 ∈ activeSprings (lit 287 2 1 (aw 0)) ∧ fusedV (aw 0) 287 (stepCode (aw 0)) < 128 := by
  unfold resettable; decide +kernel

/-! ## Privet, registers, counters and memory -/

/-- A request block of a source: class, command, session, counter, payload, key. -/
def asks (src cls cmd session counter : Nat) (pay key : List Byte) : PReq :=
  let b := leBytes 64 (0x50525651 + 256 ^ 4 + cls * 256 ^ 5 + cmd * 256 ^ 6 + pay.length * 256 ^ 8 + session * 256 ^ 12 + counter * 256 ^ 16) ++ pay
  ⟨src, 0, if cls = 1 then b ++ hmac384 key b else b⟩

/-- A session of connection 0. -/
def open0 : Session := { number := 5, owner := none, opened := 0, life := 60, last := 1, mac := [1], wrap := [2], push := 10 }

/-- The state in which a request waits for Privet. -/
def waits (r : PReq) : State := { mere 1 State.reset with preqs := [r], sessions := [(4, open0)] }

/-- Privet: every SENSITIVE and every ROUTINE command passes its checks. -/
theorem witness_Privet_sensitive : ∀ cmd ∈ [0x10, 0x11, 0x12, 0x13, 0x14, 0x15, 0x16], let r := asks 4 2 cmd 0 0 [] []; ∃ u, Sensitive cmd r (waits r) u := by
  intro cmd h
  have hc : (let r := asks 4 2 cmd 0 0 [] []; privetUp (waits r) = true ∧ nextReq (waits r) = some r ∧ rqCmd r.block = cmd ∧ (waits r).busy = none ∧
      rqSerial r.block = (waits r).fuses.serial ∧ rqCounter r.block = (waits r).flash.sreq) := by
    revert cmd; decide +kernel
  exact ⟨_, _, ⟨hc.1, hc.2.1, hc.2.2.1, rfl⟩, hc.2.2.2.1, hc.2.2.2.2.1, hc.2.2.2.2.2, rfl⟩

/-- A block without payload splits into what is signed and its authenticator. -/
theorem block_splits (b h : List Byte) (hl : b.length = 64) (h0 : rqLength (b ++ h) = 0) : rqSigned (b ++ h) = b ∧ rqAuth (b ++ h) = h := by
  unfold rqSigned rqAuth
  rw [h0, show 64 + pad8 0 = b.length by rw [hl]; rfl]
  exact ⟨List.take_left, List.drop_left⟩

theorem waits_ready (r : PReq) : privetUp (waits r) = true ∧ nextReq (waits r) = some r ∧ sessionOf (waits r) 4 = some open0 := by
  refine ⟨rfl, rfl, ?_⟩
  have : sessionOf (waits r) 4 = sessionOf { mere 1 State.reset with sessions := [(4, open0)] } 4 := rfl
  rw [this]; decide +kernel

theorem witness_Privet_routine : ∀ cmd ∈ [0x20, 0x21, 0x22, 0x23, 0x24, 0x25, 0x26, 0x27], let r := asks 4 1 cmd 5 2 [] [1]; ∃ u, Routine cmd r { open0 with last := 2 } (waits r) u := by
  intro cmd h
  have hc : (let r := asks 4 1 cmd 5 2 [] [1]; rqCmd r.block = cmd ∧ rqSession r.block = 5 ∧ rqCounter r.block = 2 ∧ rqLength r.block = 0) := by
    revert cmd; decide +kernel
  have hs := block_splits _ _ (by revert cmd; decide +kernel) hc.2.2.2
  have hw := waits_ready (asks 4 1 cmd 5 2 [] [1])
  refine ⟨_, _, open0, ⟨hw.1, hw.2.1, hc.1, rfl⟩, hw.2.2, hc.2.1, (congrArg (hmac384 [1]) hs.1).trans hs.2.symm, ?_, ?_, rfl⟩
  · rw [hc.2.2.1]; decide
  · rw [hc.2.2.1]

/-- An image whose body is empty, 4,096 bytes. -/
def firmware : List Byte := leBytes 32 (0x5052494D + 256 ^ 4 + 256 ^ 6) ++ sha384 [] ++ List.replicate 4016 0

/-- Privet: the image's range, its form and its SVN; a region of one entry; requests whose payloads stand at their limits. -/
theorem witness_Privet_forms : let s := mere 1 State.reset; let r := asks 4 2 0x11 0 0 (leBytes 16 (mereBase + 4096 * 2 ^ 64)) []; let p := rqPayload r.block; let q := fun (n : Nat) => rqPayload (asks 4 1 0 5 2 (leBytes 8 n) []).block;
    imageRange s r (bNat p 0 8) (bNat p 8 4) = true ∧ imageFormed firmware = true ∧ s.fuses.svn ≤ bNat firmware 0x10 1 ∧ bNat firmware 0x10 1 < { s.fuses with svn := 1 }.svn ∧ imageFormed [] = false ∧
    s.flash.hss < 2 ^ 20 ∧ (configTarget s (clkPage 287 + 0x44)).isSome = true ∧ (configTarget s (ethPage 1 + 0x40)).isSome = true ∧ ethCfg s 1 ≠ ethCfg (sets [(ethPage 1, Eth.mode, 0, 3)] s) 1 ∧ (configTarget s (clkPage 287 + 0x48)).isSome = false ∧ s.flash.config.length + 1 ≤ 4096 ∧
    bNat (q 10) 0 2 = 10 ∧ bNat (q 10000) 0 2 = 10000 ∧ bNat (q (200 * 2 ^ 32)) 4 4 = 200 ∧ bNat (q (400 * 2 ^ 32)) 4 4 = 400 ∧ bNat (q (63 * 256 + 64 * 256 ^ 2)) 1 1 < bNat (q (63 * 256 + 64 * 256 ^ 2)) 2 1 ∧
    bNat (q (3 + 256 + 3 * 256 ^ 2)) 0 1 = 3 := by decide +kernel

/-- Privet: a response that fits its room and one that does not, a push and a session's end at their last edges, and the debug connector. -/
theorem witness_Privet_others : let r := asks 3 0 1 0 0 [] []; let s := que 131 (busyWith (desc [(0, 1, 1), (0x20, 8, mereBase), (0x28, 4, 64)])) State.reset; let w := { waits r with now := 10 * msEdges }; let d := sets [(prvPage, Prv.debug, 0, 1)] w;
    (requestFlight s r).isSome = true ∧ (responseBlock r.block pvOk 0 [] none).length = 64 ∧ (∃ y ∈ sessionOf w 4, y.push ≠ 0 ∧ y.pushAt + y.push * msEdges ≤ w.now) ∧ privetUp w = true ∧ sessionOf w 5 = none ∧
    (∃ x ∈ tblFind 4 { w with now := 60 * secEdges }.sessions, x.opened + x.life * secEdges ≤ 60 * secEdges) ∧ getF w prvPage Prv.debug = 0 ∧ getF d prvPage Prv.debug ≠ 0 ∧
    (seqPage 4095 + 0x10 < prvPage ∧ (pageAt d (seqPage 4095 + 0x10)).isSome = true ∧ (seqPage 4095 + 0x10) % 4096 = 0x10) ∧ debugMem d (spmBase 4095 + spmSize - 256) 256 = true ∧ anyAsleep d (debugCores (spmBase 4095 + spmSize - 256) 256) = false ∧
    (let z := sets [(clkPage 286, Clk.state, 0, 3)] d; anyAsleep z (debugCores (spmBase 4095 + spmSize - 256) 256) = true ∧ ∃ pg ∈ pageAt z (seqPage 4095 + 0x10), (readWaits pg z).1 = true ∧ (readWaits pg d).1 = false ∧ pageAbsent z pg = false) ∧
    debugMem d mereBase 256 = true ∧ d.damage = [] ∧ d.fld.all (fun e => decide (e.2 ≠ 4)) = true := by decide +kernel

/-- RegistersAndCounters: the last communicator free, valid and busy, the header of a page, a core's bank, a window that ends and the last entry of a tag buffer. -/
theorem witness_RegistersAndCounters : let o := hedge 31 { lastPlot .ready with owner := some 4095 } State.reset; let c := fun (v : Nat) => sets [(nePage, Ne.hedge, 63, 31), (nePage, Ne.valid, 63, v)] o;
    let b := { que 127 (busyWith (desc [(0x28, 2, 63)])) (c 1) with now := 1 }; let t : TagFlight := ⟨2 ^ 48 - 1, 0x1FFF8, 3, 7, 0, 0⟩;
    (mayWriteComm (c 0) 4095 63 0 62 = true ∧ commValid (c 0) 63 = false ∧ mayWriteComm (c 0) 4095 63 0 0 = false ∧ mayWriteComm (c 1) 4095 63 0 0 = true ∧ commValid (c 1) 63 = true ∧ mayWriteComm (c 1) 0 63 7 0 = false) ∧
    (∀ f ∈ commFields 0, bitsOf (31 * 2 + 2 ^ Ne.size.lo) f.lo f.len = getF (c 1) nePage f 63) ∧ (∃ f ∈ (getQueue b (96 + 31)).flights, dNat f.desc 0x28 2 = 63) ∧
    (pageAt o (seqPage 4095 + 4)).isSome = true ∧ pageAt o 0 = none ∧ (mayReadBank o 4095 4095 = true ∧ mayReadBank o 0 4095 = false ∧ mayWriteBank o 4095 4095 = true ∧ mayWriteBank o 0 4095 = false) ∧
    (let u := { o with now := 2 ^ getF o (bankBase 4287) Cnt.bwLog2 }; bankF0 u 4287 / 2 ^ getF u (bankBase 4287) Cnt.bwLog2 ≠ (getBank u 4287).ended) ∧
    (getF o colPage Col.devHeld ≠ 1 ∧ ownsHedge o 4095 31 = true ∧ ownsHedge o 0 31 = false) ∧
    (let u := sets [(tagPage 4095, Tag.next, 0, 63)] { o with tagged := [(4095, t)] }; tblFind 4095 u.tagged = some t ∧ getF u (tagPage 4095) Tag.next = 63) ∧ 0xFFFFFFFF ≤ 0xFFFFFFFF := by decide +kernel

theorem witness_RegistersAndCounters_header : let o := hedge 31 { lastPlot .ready with owner := some 4095 } (sets [(bupPage, Bup.state, 0, 1)] State.reset); mayHead o 4095 (pgSeq 4095) ∧ ¬ mayHead o 0 (pgSeq 4095) :=
  ⟨⟨by decide +kernel, (by decide +kernel : mayWriteCore (hedge 31 { lastPlot .ready with owner := some 4095 } (sets [(bupPage, Bup.state, 0, 1)] State.reset)) 4095 4095 = true)⟩,
    fun h => absurd h.2 (by decide +kernel : ¬ mayWriteCore (hedge 31 { lastPlot .ready with owner := some 4095 } (sets [(bupPage, Bup.state, 0, 1)] State.reset)) 0 4095 = true)⟩

/-- RegistersAndCounters: a sweep of the device's stream alone that fits, one that does not, and one without streams. -/
theorem witness_RegistersAndCounters_sweep : let e := { sets [(colPage, Col.en, 0, 1)] (seg0 31 (mere 1 State.reset)) with now := 100 * 100 * usEdges };
    let s := sets [(colPage, Col.strEn, 32, 1), (colPage, Col.log2, 32, 8), (colPage, Col.devHedge, 0, 31), (colPage, Col.baseLo, 32, mereBase % 2 ^ 32), (colPage, Col.baseHi, 32, mereBase / 2 ^ 32)] e;
    let due := fun (u : State) => getF u colPage Col.en ≠ 0 ∧ u.sweptAt + getF u colPage Col.period * 100 * usEdges ≤ u.now; let full := sets [(colPage, Col.tail, 32, 256)] s;
    due e ∧ (∀ st ∈ List.range 33, getF e colPage Col.strEn st ≠ 1) ∧ due s ∧ getF s colPage Col.strEn 32 = 1 ∧ (∀ st ∈ List.range 32, getF s colPage Col.strEn st ≠ 1) ∧ tblFind 32 s.owedEnd = none ∧
    (streamBanks s 32).length = 199 ∧ 2 ^ streamLog s 32 = 256 ∧ (∀ i ∈ List.range 201, mereOwned s (streamHedge s 32) (mereBase + 128 * i) 128 = true) ∧
    s.damage = [] ∧ s.fld.all (fun x => decide (x.2 ≠ 4)) = true ∧ streamRoom s 32 = true ∧ streamRoom full 32 = false := by decide +kernel

theorem witness_MemoryCanonical : Memory.wf State.reset.mem = true := by decide

/-! ## Results worked out from the rules and their examples -/

/-- What a tile instruction leaves in core 0, where it goes on. -/
def ran (o : Host.Outcome State Fault Refusal) : Option Core := match o with
  | .next t => some (getCore t 0)
  | _ => none

/-- R108: −1 + 1 is 0 and the next instruction follows. R100: register 0 takes nothing. -/
theorem test_add_wraps : let s := one { runs with sregs := [(1, 0xFFFFFFFFFFFFFFFF), (2, 1)] };
    (ran (exec (.add 0 (word [(3, 51), (1, 46), (2, 41)])) s)).map (fun k => (sreg k 3, k.pc)) = some (0, 0x208) := by decide +kernel
theorem test_register_zero : (ran (exec (.add 0 (word [(0, 51), (1, 46), (1, 32), (5, 0)])) (one runs))).map (fun k => (sreg k 0, k.pc)) = some (0, 0x208) := by decide +kernel

/-- R108: SRA of the most negative number by 63 is −1, and SHR of it is 1. -/
theorem test_shifts : let s := one { runs with sregs := [(1, 0x8000000000000000), (2, 127)] };
    (ran (exec (.sra 0 (word [(3, 51), (1, 46), (2, 41)])) s)).map (fun k => sreg k 3) = some 0xFFFFFFFFFFFFFFFF ∧
    (ran (exec (.shr 0 (word [(3, 51), (1, 46), (2, 41)])) s)).map (fun k => sreg k 3) = some 1 := by decide +kernel

/-- R107: an instruction with a bit set in a field it does not use faults. -/
theorem test_unused_field_faults : (ran (exec (.add 0 (word [(3, 51), (1, 46), (2, 41), (1, 0)])) (one runs))).map (fun k => k.mode) = some .fault := by decide +kernel

/-- The example of R124 and R125: the records of A = 3, 5, 5, 5, 9 and B = 5, 5, 7, 9, 9. -/
theorem test_set_example : let r := fun (op : Nat) => (setRun op 10 0 0 [3, 5, 5, 5, 9] [5, 5, 7, 9, 9]).map (fun e => (e.1, e.2.1)); let none := 0xFFFFFFFF;
    r 1 = [(1, 0), (2, 1), (4, 3)] ∧ r 2 = [(0, none), (1, 0), (2, 1), (3, none), (none, 2), (4, 3), (none, 4)] ∧ r 3 = [(0, none), (3, none)] ∧
    r 4 = [(1, 0), (1, 1), (2, 0), (2, 1), (3, 0), (3, 1), (4, 3), (4, 4)] := by decide +kernel

/-- The example of R14 and R538: with a hole at row 37, pcol 30, logical column 27 is at pcol 31, and column 26 stays at pcol 29. -/
theorem test_hole_shifts_routing : let s : State := { State.reset with holes := [siteAt 37 30] };
    routingSite s (37 * 64 + 27) = siteAt 37 31 ∧ routingSite s (37 * 64 + 26) = siteAt 37 29 := by decide +kernel

/-- The example of R242: address 0x0100_A000_0340 is on channel 67 of 192, and on channel 55 once channel 5 is retired. -/
theorem test_interleave : let s := sets ((List.range 6).map (fun i => (msmPage, Msm.active, i, 2 ^ 32 - 1))) State.reset;
    chanOf s 0x0100A0000340 = 67 ∧ chanOf (setActive 5 false s) 0x0100A0000340 = 55 := by decide +kernel

/-- R169: two stretches of 50 % on one side make one net slip; one leaves a half cycle, which the other side's next stretch takes back. Cluster 41 has 16 links
in each direction with clusters 40 and 42 and, in field row 0, one in each direction with cluster 113 to the south. -/
theorem test_slips : let on := fun (cl : Nat) (s : State) => setF (clkPage cl) Clk.state 1 s; let s := on 113 (on 42 (on 40 State.reset));
    netSlips s 41 40 2 = (1, 0) ∧ netSlips s 41 40 1 = (0, -1) ∧ netSlips { s with halfSlips := [(512 * 40 + 41, -1)] } 40 41 1 = (0, 0) ∧
    (siteLinks s 41).length = 66 := by decide +kernel

/-- The example of R518: two pages and their BLK_ID. -/
theorem test_pages : let id := fun (a : Nat) => (pageAt State.reset a).map (fun pg => pageWord (fun _ => true) State.reset pg 0);
    id 0x0F03005C2040 = some 0x06013001 ∧ id 0x0F0004C35000 = some 0x060114C3 ∧ plotOfCore 1219 = 8 := by decide +kernel

/-- FIPS 180-4 gives the digest of "abc"; the CRCs of "123456789" are their check values. -/
theorem test_sha384 : (sha384 [0x61, 0x62, 0x63]).take 8 = [0xCB, 0x00, 0x75, 0x3F, 0x45, 0xA3, 0x5E, 0x8B] := by decide +kernel
theorem test_crcs : let t := (List.range 9).map (fun i => BitVec.ofNat 8 (0x31 + i)); crc32 t = 0xCBF43926 ∧ crc64 t = 0x995DC9BBDF1939FA := by decide +kernel

/-- A write of what an unlisted address reads as removes the entry. -/
theorem test_memory_canonical : memPut [(4, 1), (5, 2)] 4 0 = [(5, 2)] ∧ memPut [(5, 2)] 4 1 = [(4, 1), (5, 2)] := by decide

end Sys2Proof.Tests
end

section
/-!
PROOFS. The input formats an operation pairs (R31) and the reading of a DA48 container (R37).
-/
namespace Sys2Proof.Machine

/-! ## Pairs of input formats (R31) -/

/-- The pairs of R31: two equal formats of the five that pair only with themselves, or any two of the FP8 formats. -/
theorem fmtPair_iff (a b : Fmt) : fmtPair a b = true ↔
    (a, b) ∈ [(.fp4, .fp4), (.bf16, .bf16), (.fp16, .fp16), (.fp32, .fp32), (.int8, .int8)] ∨
      a ∈ [Fmt.e4m3, .e5m2] ∧ b ∈ [Fmt.e4m3, .e5m2] := by
  constructor
  · fun_cases fmtPair a b <;> simp
  · simp only [List.mem_cons, List.not_mem_nil, Prod.mk.injEq, or_false]
    rintro ((⟨rfl, rfl⟩ | ⟨rfl, rfl⟩ | ⟨rfl, rfl⟩ | ⟨rfl, rfl⟩ | ⟨rfl, rfl⟩) | ⟨rfl | rfl, rfl | rfl⟩) <;> rfl

/-- In a pair, only INT8 with INT8 selects integer mode. -/
theorem fmtIsInt_of_fmtPair (a b : Fmt) : fmtPair a b = true → (fmtIsInt a = true ↔ a = .int8 ∧ b = .int8) := by
  fun_cases fmtPair a b <;> simp [fmtIsInt]

/-! ## The reading of a DA48 container (R37) -/

/-- A container's bits [62:16] are the code of an infinity when its exponent is 0x7FF and its fraction in [51:16] is zero. -/
theorem container_infinite_iff (x : BitVec 64) :
    x.toNat / 2 ^ 16 % 2 ^ 48 % 2 ^ 47 = 0x7FF000000000 ↔ x.extractLsb' 52 11 = 0x7FF ∧ x.extractLsb' 16 36 = 0 := by
  simp only [← BitVec.toNat_inj, BitVec.extractLsb'_toNat, Nat.shiftRight_eq_div_pow, BitVec.ofNat_eq_ofNat, BitVec.toNat_ofNat]
  omega

/-- The ignored bits [15:0] of a container, as the model and as the rule name them. -/
theorem container_low_eq_zero_iff (x : BitVec 64) : x.toNat % 2 ^ 16 = 0 ↔ x.extractLsb' 0 16 = 0 := by
  simp [← BitVec.toNat_inj, BitVec.extractLsb'_toNat]

/-- A container reads as its bits [63:16], but for an infinity with non-zero low bits, which is the canonical NaN. -/
theorem daOfContainer_toNat (x : BitVec 64) : daOfContainer x.toNat =
    if x.extractLsb' 52 11 = 0x7FF ∧ x.extractLsb' 16 36 = 0 ∧ x.extractLsb' 0 16 ≠ 0 then daNan
    else (x.extractLsb' 16 48).toNat := by
  simp only [daOfContainer, container_infinite_iff, ne_eq, container_low_eq_zero_iff, and_assoc,
    BitVec.extractLsb'_toNat, Nat.shiftRight_eq_div_pow]

/-- Settles O10: the pairs of R31 with their mode, and the container reading of R37. -/
theorem inputFormats : Obligations.InputFormats :=
  ⟨fun a b => ⟨fmtPair_iff a b, fmtIsInt_of_fmtPair a b⟩, daOfContainer_toNat⟩

end Sys2Proof.Machine
end

section
/-!
PROOFS. The Mere thermal reduction (R387), with what it uses of the cap in force (R368) and of an error's report (R515).
-/
namespace Sys2Proof.Machine

/-! ## What an error's report leaves as it was (R514, R515) -/

/-- An event due changes the list of pages alone. -/
theorem noteRise_frame (base b : Nat) (s : State) : noteRise base b s = { s with evtDue := (noteRise base b s).evtDue } := by
  unfold noteRise
  split <;> rfl

/-- A bit of BLK_ERR changes registers and the pages due alone. -/
theorem setErrBit_frame (base b : Nat) (s : State) :
    setErrBit base b s = { s with fld := (setErrBit base b s).fld, evtDue := (setErrBit base b s).evtDue } := by
  unfold setErrBit
  split
  · rfl
  · rw [noteRise_frame]
    rfl

/-- An error changes registers and the pages due alone. -/
theorem setErr_frame (base b addr info : Nat) (s : State) :
    setErr base b addr info s = { s with fld := (setErr base b addr info s).fld, evtDue := (setErr base b addr info s).evtDue } := by
  unfold setErr
  rw [setErrBit_frame]
  split <;> rfl

/-! ## The cap in force (R368) -/

/-- The register fields that the cap in force is made of. -/
def capKeys : List Nat := [fkey inpPage Inp.bar0State 0, fkey inpPage Inp.bar1State 0, fkey inpPage Inp.good 0, fkey pctPage Pct.cellsLow 0]

/-- A write of any other field leaves the cap in force. -/
theorem capNow_setF (b : Nat) (f : Field) (v : Nat) (s : State) (i : Nat) (h : fkey b f i ∉ capKeys) : capNow (setF b f v s i) = capNow s := by
  simp only [capKeys, List.mem_cons, List.not_mem_nil, or_false, not_or] at h
  obtain ⟨h0, h1, hgood, hcells⟩ := h
  have hbars : barsGood (setF b f v s i) = barsGood s := by
    simp only [barsGood, getF_setF_other _ _ _ _ _ _ _ _ (Ne.symm h0), getF_setF_other _ _ _ _ _ _ _ _ (Ne.symm h1)]
  simp only [capNow, hbars, getF_setF_other _ _ _ _ _ _ _ _ (Ne.symm hgood), getF_setF_other _ _ _ _ _ _ _ _ (Ne.symm hcells), fusedMax,
    setF_fuses, setF_flash, setF_pwr]

/-- The cap in force is at most the fused maximum less the Mere thermal reduction. -/
theorem capNow_le_mereLimit (s : State) : capNow s ≤ fusedMax s - fusedMax s * (5 * s.pwr.mereCut) / 100 := Nat.min_le_right _ _

theorem fusedMax_le (s : State) : fusedMax s ≤ 15500 := by
  unfold fusedMax
  split <;> decide

/-- The cap in force fits PCTL_CAP. -/
theorem capNow_lt (s : State) : capNow s < 2 ^ 16 := by
  have hlim := capNow_le_mereLimit s
  have hmax := fusedMax_le s
  omega

/-- What PCTL_CAP shows is no part of what the cap in force is made of. -/
@[simp] theorem capNow_setCap (s : State) : capNow (setCap s) = capNow s := by
  unfold setCap
  rw [capNow_setF _ _ _ _ _ (by decide), capNow_setF _ _ _ _ _ (by decide)]

@[simp] theorem getF_setCap_cap (s : State) : getF (setCap s) pctPage Pct.cap = capNow s := by
  unfold setCap
  rw [getF_setF_other _ _ _ _ _ _ _ _ (by decide), getF_setF]
  exact Nat.mod_eq_of_lt (capNow_lt s)

theorem getF_setCap_other (s : State) (b : Nat) (f : Field) (i : Nat) (hcap : fkey b f i ≠ fkey pctPage Pct.cap 0)
    (heff : fkey b f i ≠ fkey pctPage Pct.capEff 0) : getF (setCap s) b f i = getF s b f i := by
  unfold setCap
  rw [getF_setF_other _ _ _ _ _ _ _ _ heff, getF_setF_other _ _ _ _ _ _ _ _ hcap]

/-! ## The Mere thermal reduction (R387) -/

/-- The state with a new reduction of `n` times 5 %, begun now, and the cap that follows. -/
def setMereCut (n : Nat) (s : State) : State :=
  setCap (setF pctPage Pct.mereHotBit (if n = 0 then 0 else 1) { s with pwr := { s.pwr with mereCut := n, mereAt := s.now } })

theorem setMereCut_frame (n : Nat) (s : State) :
    setMereCut n s = { s with fld := (setMereCut n s).fld, pwr := { s.pwr with mereCut := n, mereAt := s.now } } := rfl

theorem getF_setMereCut_mereHotBit (n : Nat) (s : State) : getF (setMereCut n s) pctPage Pct.mereHotBit = if n = 0 then 0 else 1 := by
  unfold setMereCut
  rw [getF_setCap_other _ _ _ _ (by decide) (by decide), getF_setF]
  split <;> rfl

/-- A new reduction shows the cap in force. -/
theorem getF_setMereCut_cap (n : Nat) (s : State) : getF (setMereCut n s) pctPage Pct.cap = capNow (setMereCut n s) := by
  simp [setMereCut]

/-- The cap that a new reduction shows is at most the fused maximum less `n` times 5 % of it. -/
theorem getF_setMereCut_cap_le (n : Nat) (s : State) :
    getF (setMereCut n s) pctPage Pct.cap ≤ fusedMax s - fusedMax s * (5 * n) / 100 := by
  rw [getF_setMereCut_cap]
  exact capNow_le_mereLimit (setMereCut n s)

/-- `t` is `s` with a new reduction of `n` times 5 %: the registers and the pages due apart, only the reduction and its time move;
MERE_HOT says whether one is in force, and PCTL_CAP follows. -/
def MereCutSet (n : Nat) (s t : State) : Prop :=
  t = { s with fld := t.fld, evtDue := t.evtDue, pwr := { s.pwr with mereCut := n, mereAt := s.now } } ∧
    getF t pctPage Pct.mereHotBit = (if n = 0 then 0 else 1) ∧
    getF t pctPage Pct.cap = capNow t ∧ getF t pctPage Pct.cap ≤ fusedMax s - fusedMax s * (5 * n) / 100

theorem mereCutSet_setMereCut (n : Nat) (s : State) : MereCutSet n s (setMereCut n s) :=
  ⟨setMereCut_frame n s, getF_setMereCut_mereHotBit n s, getF_setMereCut_cap n s, getF_setMereCut_cap_le n s⟩

/-- An error reported first leaves the new reduction as it is. -/
theorem mereCutSet_setMereCut_setErr (n base b addr info : Nat) (s : State) : MereCutSet n s (setMereCut n (setErr base b addr info s)) := by
  rw [setErr_frame]
  exact mereCutSet_setMereCut n { s with fld := (setErr base b addr info s).fld, evtDue := (setErr base b addr info s).evtDue }

theorem exec_mereThermalReduction (s : State) : exec .mereThermalReduction s = .next (mereReduction s) := rfl

/-- With a package at or above 95 °C the reduction starts, grows once 10 ms have passed while it is below 50 %, or stays. -/
theorem mereReduction_of_hot (s : State) (hrun : privetRuns s = true) (hot : ∃ m ∈ mereTemps s, 95 ≤ m) :
    mereReduction s =
      if s.pwr.mereCut = 0 then setMereCut 1 (setErr pctPage Pct.eMereHot 0 0 s)
      else if s.pwr.mereCut < 10 ∧ s.pwr.mereAt + 10 * msEdges ≤ s.now then setMereCut (s.pwr.mereCut + 1) s
      else s := by
  have hany : (mereTemps s).any (fun t => decide (95 ≤ t)) = true := by simpa using hot
  simp only [mereReduction, hrun, hany, Bool.true_eq_false, if_true, if_false]
  rfl

/-- With every package below 95 °C it falls once 100 ms have passed, if every one is at or below 90 °C, or stays. -/
theorem mereReduction_of_not_hot (s : State) (hrun : privetRuns s = true) (hot : ¬ ∃ m ∈ mereTemps s, 95 ≤ m) :
    mereReduction s =
      if (∀ m ∈ mereTemps s, m ≤ 90) ∧ 0 < s.pwr.mereCut ∧ s.pwr.mereAt + 100 * msEdges ≤ s.now then setMereCut (s.pwr.mereCut - 1) s
      else s := by
  have hany : (mereTemps s).any (fun t => decide (95 ≤ t)) = false := by simpa using hot
  simp only [mereReduction, hrun, hany, Bool.true_eq_false, Bool.false_eq_true, if_false, List.all_eq_true, decide_eq_true_eq]
  rfl

/-- Packages at or below 90 °C are all below 95 °C. -/
theorem not_hot_of_cool {l : List Nat} (cool : ∀ m ∈ l, m ≤ 90) : ¬ ∃ m ∈ l, 95 ≤ m := by
  rintro ⟨m, hm, h95⟩
  have := cool m hm
  omega

/-- Settles O52: each clause is one branch of the reduction with a package at 95 °C or with none. -/
theorem mereReduction_holds : Obligations.MereReduction := by
  intro s p hot cool same becomes hrun
  have become {n : Nat} {t : State} (heq : mereReduction s = t) (hset : MereCutSet n s t) : becomes n :=
    ⟨t, congrArg _ heq, hset⟩
  have stay (heq : mereReduction s = s) : same := congrArg _ heq
  refine ⟨fun hhot hzero => ?start, fun hhot hpos hlt hdue => ?grow, fun hhot hpos hearly => ?hotEarly, fun hhot hfull => ?full,
    fun hcool hpos hdue => ?fall, fun hcool hearly => ?coolEarly, fun hnot hstill => ?between⟩
  case start =>
    exact become ((mereReduction_of_hot s hrun hhot).trans (if_pos hzero)) (mereCutSet_setMereCut_setErr ..)
  case grow =>
    refine become ?_ (mereCutSet_setMereCut ..)
    rw [mereReduction_of_hot s hrun hhot, if_neg (Nat.ne_of_gt hpos), if_pos ⟨hlt, hdue⟩]
  case hotEarly =>
    apply stay
    rw [mereReduction_of_hot s hrun hhot, if_neg (Nat.ne_of_gt hpos), if_neg (fun ⟨_, hdue⟩ => Nat.not_le_of_gt hearly hdue)]
  case full =>
    apply stay
    have hne : s.pwr.mereCut ≠ 0 := Nat.ne_of_gt (Nat.lt_of_lt_of_le (by decide : 0 < 10) hfull)
    rw [mereReduction_of_hot s hrun hhot, if_neg hne, if_neg (fun ⟨hlt, _⟩ => Nat.not_lt_of_ge hfull hlt)]
  case fall =>
    refine become ?_ (mereCutSet_setMereCut ..)
    rw [mereReduction_of_not_hot s hrun (not_hot_of_cool hcool), if_pos ⟨hcool, hpos, hdue⟩]
  case coolEarly =>
    apply stay
    rw [mereReduction_of_not_hot s hrun (not_hot_of_cool hcool), if_neg (fun ⟨_, _, hdue⟩ => Nat.not_le_of_gt hearly hdue)]
  case between =>
    apply stay
    rw [mereReduction_of_not_hot s hrun hnot, if_neg]
    rintro ⟨hcool, hpos, -⟩
    exact hstill.elim (fun h => h hcool) (Nat.ne_of_gt hpos)

end Sys2Proof.Machine
end
